-- ==== Sys2Proof/Word.lean ====
section
/-! DEFINITION. The words of the machine: bytes, carried register words, instruction words, the two
register widths of `00_scope.md` R5, and the numbers that name a register of either file (R111, R123). -/

namespace Sys2Proof

/-- One byte of memory: 8 bits (`10_state.md` R35). -/
abbrev Byte := BitVec 8

/-- The 64 bits that carry a register, an address or an information value. When `XLEN = 32` the value
lies in bits 31:0 and the upper half is zero (R5, R20, R23). -/
abbrev Word := BitVec 64

/-- One instruction word `inst[31:0]`: every instruction is 32 bits long (`30_encoding.md` R110). -/
abbrev InstWord := BitVec 32

/-- The two configurations of the machine (`00_scope.md` R2, R5): RV32IMAFD and RV64IMAFD. -/
inductive XLen where
  /-- `XLEN = 32` -/
  | rv32
  /-- `XLEN = 64` -/
  | rv64
deriving DecidableEq, Repr

/-- `XLEN` as a number of bits (R5). -/
def XLen.bits : XLen → Nat
  | .rv32 => 32
  | .rv64 => 64

/-- The number of an integer register `x0` to `x31` (`10_state.md` R20). -/
structure XReg where
  num : BitVec 5
deriving DecidableEq, Repr

/-- The number of a floating-point register `f0` to `f31` (`10_state.md` R27). -/
structure FReg where
  num : BitVec 5
deriving DecidableEq, Repr

end Sys2Proof
end

