-- ==== Sys2Proof/Config.lean ====
section
/-! DEFINITION. What an implementation fixes (`00_scope.md` R5) and the one value the spec leaves free. The
parameters are plain data that `State` carries and no step changes (log 2); the free value is an opaque constant. -/

namespace Sys2Proof

/-- The kinds of access that `mem_valid` tells apart (`00_scope.md` R5, `20_memory.md` R66). -/
inductive AccessKind where
  | fetch
  | load
  | store
  | amo
  | lr
  | sc
deriving DecidableEq, Repr

/-- A run of `size` valid byte addresses from `base`, with the kinds and the widths in bytes of the accesses it
admits: one piece of the platform's `mem_valid` (`20_memory.md` R66, D4). -/
structure Region where
  base : Nat
  size : Nat
  kinds : List AccessKind
  widths : List Nat
deriving DecidableEq, Repr

/-- Whether the `n` bytes from `addr` lie in the region and it admits their kind and width. -/
def Region.admits (r : Region) (kind : AccessKind) (addr n : Nat) : Bool :=
  r.base ≤ addr && addr + n ≤ r.base + r.size && r.kinds.contains kind && r.widths.contains n

/-- The parameters of `00_scope.md` R5 that are not fixed there. `FLEN = 64`, `ILEN = 32`, `IALIGN = 32`,
`MISALIGNED = trap` and `NANBOX = true` are built in; `eei_trap` is an argument of `Machine.deliverTrap` (log 6);
`NHARTS = 1` (log 1). -/
structure Params where
  /-- `XLEN` -/
  xlen : XLen
  /-- `RESET_PC` -/
  resetPc : Word
  /-- `mem_valid`, as the list of the regions that are valid -/
  memMap : List Region
  /-- `RES_GRAIN` is two to this power -/
  resGrainLog2 : Nat
  /-- `sc_may_fail_spuriously` -/
  scMayFailSpuriously : Bool
deriving DecidableEq, Repr

/-- `mem_valid(addr, n, kind)`: some region admits the access. It depends on the address, the width and the kind
only, as `20_memory.md` R66 demands. -/
def Params.memValid (p : Params) (kind : AccessKind) (addr n : Nat) : Bool :=
  p.memMap.any (·.admits kind addr n)

/-- `RES_GRAIN` in bytes: a power of two (`43_a_atomics.md` R261, D9). -/
def Params.resGrain (p : Params) : Nat := 2 ^ p.resGrainLog2

/-- What R5 demands of the parameters: `RESET_PC` a multiple of 4 that fits `XLEN` bits, and `RES_GRAIN` at least 4
(`XLEN = 32`) or 8 (`XLEN = 64`) bytes, no larger than the address space. -/
def Params.wf (p : Params) : Bool :=
  p.resetPc.toNat % 4 == 0 && p.resetPc.toNat < 2 ^ p.xlen.bits &&
    (match p.xlen with
      | .rv32 => 2
      | .rv64 => 3) ≤ p.resGrainLog2 && p.resGrainLog2 ≤ p.xlen.bits

/-- Every kind of access. -/
def AccessKind.all : List AccessKind := [.fetch, .load, .store, .amo, .lr, .sc]

/-- The parameters of `State.reset`: RV64IMAFD, `RESET_PC = 0x1000`, the whole address space valid, a reservation
grain of 64 bytes. DESIGN CHOICE, unsafe: the spec leaves each OPEN (log 2, log 5). `sc_may_fail_spuriously` is the
spec's default (`43_a_atomics.md` R262). -/
def Config.defaultParams : Params where
  xlen := .rv64
  resetPc := 0x1000
  memMap := [{ base := 0, size := 2 ^ 64, kinds := AccessKind.all, widths := [1, 2, 4, 8] }]
  resGrainLog2 := 6
  scMayFailSpuriously := true

/-- FREE VALUE (log 7), the oracle of `43_a_atomics.md` R262 (d) and `93_implementation_defined.md` U5: of the SCs that
may fail although their reservation holds, how many fail in a row from the `n`-th of them on, counting on only while
they are the retries of one constrained LR/SC loop (R263; `Machine.firstDraw`). An SC that is no such retry is the
first of its row, and fails unless the number is 0. Nothing else constrains the number; that it is a natural number is
the fairness of R263. -/
opaque Config.scFailures : Nat → Nat

end Sys2Proof
end

