-- ==== Sys2Proof/Machine/State.lean ====
section
/-! DEFINITION. The state of the machine, all of it plain data; the exceptions and traps it may have stopped on; the
reasons a step may have no next state; the state after reset. -/

namespace Sys2Proof.Machine

/-- The exceptions (`60_exceptions.md` R421): the complete list. -/
inductive Cause where
  /-- A taken transfer to a target whose bits 1:0 are not zero; info: the target. -/
  | instructionAddressMisaligned
  /-- A fetch that `mem_valid` refuses; info: `pc`. -/
  | instructionAccessFault
  /-- A reserved word, or a reserved rounding mode; info: the word. -/
  | illegalInstruction
  /-- EBREAK; info: `pc`. -/
  | breakpoint
  /-- A misaligned load or LR; info: the effective address. -/
  | loadAddressMisaligned
  /-- An aligned load or LR that `mem_valid` refuses; info: the effective address. -/
  | loadAccessFault
  /-- A misaligned store, SC or AMO; info: the effective address. -/
  | storeAMOAddressMisaligned
  /-- An aligned store, SC or AMO that `mem_valid` refuses; info: the effective address. -/
  | storeAMOAccessFault
  /-- ECALL; info: 0. -/
  | environmentCall
deriving DecidableEq, Repr

/-- A trap: the pair (name, info) handed to the execution environment (`60_exceptions.md` R424). -/
structure Trap where
  cause : Cause
  info : Word
deriving DecidableEq, Repr

/-- A hart is either running or stopped after a trap (`60_exceptions.md` R445, R446). -/
inductive RunState where
  | running
  | stopped (t : Trap)
deriving DecidableEq, Repr

/-- A load reservation: the `size` byte addresses from `base` (`10_state.md` R34). -/
structure Reservation where
  base : Nat
  size : Nat
deriving DecidableEq, Repr

/-- Where a hart stands in an LR/SC sequence that may be a constrained loop (`43_a_atomics.md` R263; log 7). -/
inductive LoopPhase where
  /-- Between the LR, whose address and width these are, and its SC. -/
  | between (addr n : Nat)
  /-- After the SC failed: at the branch after it, or back at the LR. -/
  | retrying
deriving DecidableEq, Repr

/-- A run of tries of one LR/SC sequence, one after another (`43_a_atomics.md` R263; log 7). -/
structure RetryLoop where
  /-- The address of the LR. -/
  start : Word
  /-- How many times the oracle had been consulted before the first of these tries. -/
  first : Nat
  /-- Where the hart stands in the present try. -/
  phase : LoopPhase
deriving DecidableEq, Repr

/-- Memory: the listed bytes, addresses strictly rising, none equal to what an unlisted address reads as
(`Memory.wf`; `10_state.md` R35). -/
abbrev Memory := List Host.Cell

/-- The state of the machine with one hart: everything the spec gives it (`10_state.md` R20 to R36, R445), the
parameters (`00_scope.md` R5, log 2) and the model's own two fields for the oracle of SC (log 7). -/
structure State where
  /-- The parameters; no step changes them. -/
  params : Params
  /-- `pc` (R23), in bits `XLEN-1:0`. -/
  pc : Word
  /-- `x0` to `x31` (R20), each in bits `XLEN-1:0`; slot 0 is always 0 (R21). -/
  xs : Vector Word 32
  /-- `f0` to `f31`, 64 raw bits each (R27, R28). -/
  fs : Vector Word 32
  /-- The 8 implemented bits of `fcsr`: `frm` in 7:5, `fflags` in 4:0 (R30). -/
  fcsr : BitVec 8
  /-- The load reservation (R34). -/
  reservation : Option Reservation
  /-- Memory (R35). -/
  mem : Memory
  /-- The addresses this hart stored to since its last FENCE.I, strictly rising (R36, `20_memory.md` R92). -/
  stale : List Nat
  /-- Running, or stopped and the trap that stopped it (R445, R446). -/
  run : RunState
  /-- The MODEL's own field, not the spec's: how many SCs have consulted the oracle (`43_a_atomics.md` R262 (d);
  log 7). -/
  scDraws : Nat
  /-- The MODEL's own field, not the spec's: the LR/SC sequence the hart is in, if it is in one that may be a
  constrained loop (`43_a_atomics.md` R263; log 7). -/
  retryLoop : Option RetryLoop
deriving DecidableEq, Repr

/-- Why a step of a hart has no next state. -/
inductive Fault where
  /-- Raised by `step` when the hart has stopped after trap `t`: it never steps again under the default `eei_trap`
  (`60_exceptions.md` R424, R446). Safe: the spec gives no further step. -/
  | hartStopped (t : Trap)
deriving DecidableEq, Repr

/-- Where the model gives no meaning. -/
inductive Refusal where
  /-- Raised by an arm of `exec` whose instruction has no meaning yet; no arm is so now. Safe: nothing is claimed. -/
  | notModelled (mnemonic : String)
  /-- Raised by `step` when a byte of the instruction at `pc`, the first at `addr`, was stored to since the last
  FENCE.I: the spec gives old or new bytes, unspecified which, and asks the model to refuse
  (`93_implementation_defined.md` U6, D20; log 8). Safe: nothing is claimed past this point. -/
  | staleFetch (addr : Nat)
deriving DecidableEq, Repr

/-- The state right after reset for parameters `p`, register contents `xs`, `fs`, `fcsr` that the spec leaves
unspecified, and the image `image` that the execution environment loaded (`70_reset_and_hazards.md` R470): `pc` at
`RESET_PC`, `x0` zero, no reservation, no LR/SC sequence under way, the fetch view coherent with the image, the hart
running. -/
def State.resetWith (p : Params) (xs fs : Vector Word 32) (fcsr : BitVec 8) (image : Memory) : State where
  params := p
  pc := p.resetPc
  xs := xs.set 0 0
  fs := fs
  fcsr := fcsr
  reservation := none
  mem := image
  stale := []
  run := .running
  scDraws := 0
  retryLoop := none

/-- The machine right after reset, no image loaded. DESIGN CHOICE, unsafe: the parameters (log 2, log 5) and the
values of the registers and `fcsr`, which the spec leaves unspecified (U1; log 3), are named here. -/
def State.reset : State :=
  State.resetWith Config.defaultParams (Vector.replicate 32 0) (Vector.replicate 32 0) 0 []

end Sys2Proof.Machine
end

