-- ==== Sys2Proof/Machine/Flags.lean ====
section
/-! DEFINITION. The floating-point control register: the accrued exception flags, how they accrue, and the rounding
mode (`10_state.md` R30 to R32). There are no other flags (R26). -/

namespace Sys2Proof.Machine

/-- The IEEE 754 exceptions one operation signals (R30, `44_f_single.md` R304). -/
structure Flags where
  /-- invalid operation -/
  nv : Bool := false
  /-- divide by zero -/
  dz : Bool := false
  /-- overflow -/
  ofl : Bool := false
  /-- underflow -/
  ufl : Bool := false
  /-- inexact -/
  nx : Bool := false
deriving DecidableEq, Repr

/-- No exception. -/
def Flags.none : Flags := {}
/-- NV alone. -/
def Flags.invalid : Flags := { nv := true }
/-- DZ alone. -/
def Flags.divideByZero : Flags := { dz := true }
/-- NX if `b`. -/
def Flags.inexactIf (b : Bool) : Flags := { nx := b }
/-- NV if `b`. -/
def Flags.invalidIf (b : Bool) : Flags := { nv := b }

/-- The five bits `NV DZ OF UF NX`, NV in bit 4 (R30). -/
def Flags.bits (f : Flags) : BitVec 5 :=
  BitVec.ofBool f.nv ++ BitVec.ofBool f.dz ++ BitVec.ofBool f.ofl ++ BitVec.ofBool f.ufl ++ BitVec.ofBool f.nx

/-- `fflags`, `fcsr[4:0]`. -/
def State.fflags (s : State) : BitVec 5 := s.fcsr.extractLsb' 0 5

/-- `frm`, `fcsr[7:5]`. -/
def State.frm (s : State) : BitVec 3 := s.fcsr.extractLsb' 5 3

/-- The register of its two fields (R30). -/
def fcsrOf (frm : BitVec 3) (fflags : BitVec 5) : BitVec 8 := frm ++ fflags

/-- `fcsr[7:0] <- v`. -/
def setFcsr (v : BitVec 8) (s : State) : State := { s with fcsr := v }

/-- `fcsr[7:5] <- v`, `fflags` kept. -/
def setFrm (v : BitVec 3) (s : State) : State := setFcsr (fcsrOf v s.fflags) s

/-- `fcsr[4:0] <- v`, `frm` kept. -/
def setFflags (v : BitVec 5) (s : State) : State := setFcsr (fcsrOf s.frm v) s

/-- The flags an operation signals are ORed into `fflags` (R32). -/
def accrue (f : Flags) (s : State) : State := setFflags (s.fflags ||| f.bits) s

/-- The rounding modes (R31). -/
inductive RoundingMode where
  /-- 000: nearest, ties to even -/
  | rne
  /-- 001: toward zero -/
  | rtz
  /-- 010: toward minus infinity -/
  | rdn
  /-- 011: toward plus infinity -/
  | rup
  /-- 100: nearest, ties to maximum magnitude -/
  | rmm
deriving DecidableEq, Repr

/-- The mode a value of `frm`, or a static `rm`, stands for; 101, 110 and 111 are reserved (R31). -/
def roundingMode (v : BitVec 3) : Option RoundingMode :=
  match v.toNat with
  | 0 => some .rne
  | 1 => some .rtz
  | 2 => some .rdn
  | 3 => some .rup
  | 4 => some .rmm
  | _ => none

/-- The effective rounding mode of an instruction's `rm` field: 111 takes `frm` (`44_f_single.md` R301). -/
def resolveRm (rm frm : BitVec 3) : Option RoundingMode :=
  if rm = 7 then roundingMode frm else roundingMode rm

end Sys2Proof.Machine
end

