-- ==== Sys2Proof/Syntax.lean ====
section
/-! DEFINITION. The syntax of the machine's instructions: one constructor for each of the 159 rows of
`opcode_table.json` (`00_scope.md` R4), its operands as the row's fields give them (`30_encoding.md` R111, R112,
R123), immediates assembled by R116 to R122 but not yet extended. Operands stand in toolchain order (R141). -/

namespace Sys2Proof

/-- The instructions of the machine. A mnemonic `A.B.C` gives the constructor `aBC`; SLLI, SRLI and SRAI have one
row for each `XLEN` and so two constructors each (R4). Branch and jump offsets are in bytes with bit 0 included
(R118, R120), `imm` of a U-format row is `inst[31:12]` (R119). -/
inductive Instr where
  -- table RV32I (`40_rv32i.md`)
  /-- LUI: R163 -/
  | lui (rd : XReg) (imm : BitVec 20)
  /-- AUIPC: R164 -/
  | auipc (rd : XReg) (imm : BitVec 20)
  /-- JAL: R165 -/
  | jal (rd : XReg) (off : BitVec 21)
  /-- JALR: R166 -/
  | jalr (rd rs1 : XReg) (imm : BitVec 12)
  /-- BEQ: R167 -/
  | beq (rs1 rs2 : XReg) (off : BitVec 13)
  /-- BNE: R168 -/
  | bne (rs1 rs2 : XReg) (off : BitVec 13)
  /-- BLT: R169 -/
  | blt (rs1 rs2 : XReg) (off : BitVec 13)
  /-- BGE: R170 -/
  | bge (rs1 rs2 : XReg) (off : BitVec 13)
  /-- BLTU: R171 -/
  | bltu (rs1 rs2 : XReg) (off : BitVec 13)
  /-- BGEU: R172 -/
  | bgeu (rs1 rs2 : XReg) (off : BitVec 13)
  /-- LB: R173 -/
  | lb (rd rs1 : XReg) (imm : BitVec 12)
  /-- LH: R174 -/
  | lh (rd rs1 : XReg) (imm : BitVec 12)
  /-- LW: R175 -/
  | lw (rd rs1 : XReg) (imm : BitVec 12)
  /-- LBU: R176 -/
  | lbu (rd rs1 : XReg) (imm : BitVec 12)
  /-- LHU: R177 -/
  | lhu (rd rs1 : XReg) (imm : BitVec 12)
  /-- SB: R178 -/
  | sb (rs1 rs2 : XReg) (imm : BitVec 12)
  /-- SH: R179 -/
  | sh (rs1 rs2 : XReg) (imm : BitVec 12)
  /-- SW: R180 -/
  | sw (rs1 rs2 : XReg) (imm : BitVec 12)
  /-- ADDI: R181 -/
  | addi (rd rs1 : XReg) (imm : BitVec 12)
  /-- SLTI: R182 -/
  | slti (rd rs1 : XReg) (imm : BitVec 12)
  /-- SLTIU: R183 -/
  | sltiu (rd rs1 : XReg) (imm : BitVec 12)
  /-- XORI: R184 -/
  | xori (rd rs1 : XReg) (imm : BitVec 12)
  /-- ORI: R185 -/
  | ori (rd rs1 : XReg) (imm : BitVec 12)
  /-- ANDI: R186 -/
  | andi (rd rs1 : XReg) (imm : BitVec 12)
  /-- SLLI (`XLEN = 32` row): R187 -/
  | slli32 (rd rs1 : XReg) (shamt : BitVec 5)
  /-- SRLI (`XLEN = 32` row): R188 -/
  | srli32 (rd rs1 : XReg) (shamt : BitVec 5)
  /-- SRAI (`XLEN = 32` row): R189 -/
  | srai32 (rd rs1 : XReg) (shamt : BitVec 5)
  /-- ADD: R190 -/
  | add (rd rs1 rs2 : XReg)
  /-- SUB: R191 -/
  | sub (rd rs1 rs2 : XReg)
  /-- SLL: R192 -/
  | sll (rd rs1 rs2 : XReg)
  /-- SLT: R193 -/
  | slt (rd rs1 rs2 : XReg)
  /-- SLTU: R194 -/
  | sltu (rd rs1 rs2 : XReg)
  /-- XOR: R195 -/
  | xor (rd rs1 rs2 : XReg)
  /-- SRL: R196 -/
  | srl (rd rs1 rs2 : XReg)
  /-- SRA: R197 -/
  | sra (rd rs1 rs2 : XReg)
  /-- OR: R198 -/
  | or (rd rs1 rs2 : XReg)
  /-- AND: R199 -/
  | and (rd rs1 rs2 : XReg)
  /-- FENCE: R200 -/
  | fence (pred succ : BitVec 4)
  /-- FENCE.I: R201 -/
  | fenceI
  /-- ECALL: R202 -/
  | ecall
  /-- EBREAK: R203 -/
  | ebreak
  -- table RV64I (`41_rv64i.md`)
  /-- LWU: R221 -/
  | lwu (rd rs1 : XReg) (imm : BitVec 12)
  /-- LD: R222 -/
  | ld (rd rs1 : XReg) (imm : BitVec 12)
  /-- SD: R223 -/
  | sd (rs1 rs2 : XReg) (imm : BitVec 12)
  /-- SLLI (`XLEN = 64` row): R224 -/
  | slli64 (rd rs1 : XReg) (shamt : BitVec 6)
  /-- SRLI (`XLEN = 64` row): R225 -/
  | srli64 (rd rs1 : XReg) (shamt : BitVec 6)
  /-- SRAI (`XLEN = 64` row): R226 -/
  | srai64 (rd rs1 : XReg) (shamt : BitVec 6)
  /-- ADDIW: R227 -/
  | addiw (rd rs1 : XReg) (imm : BitVec 12)
  /-- SLLIW: R228 -/
  | slliw (rd rs1 : XReg) (shamt : BitVec 5)
  /-- SRLIW: R229 -/
  | srliw (rd rs1 : XReg) (shamt : BitVec 5)
  /-- SRAIW: R230 -/
  | sraiw (rd rs1 : XReg) (shamt : BitVec 5)
  /-- ADDW: R231 -/
  | addw (rd rs1 rs2 : XReg)
  /-- SUBW: R232 -/
  | subw (rd rs1 rs2 : XReg)
  /-- SLLW: R233 -/
  | sllw (rd rs1 rs2 : XReg)
  /-- SRLW: R234 -/
  | srlw (rd rs1 rs2 : XReg)
  /-- SRAW: R235 -/
  | sraw (rd rs1 rs2 : XReg)
  -- table RV32M (`42_m_muldiv.md`)
  /-- MUL: R241 -/
  | mul (rd rs1 rs2 : XReg)
  /-- MULH: R242 -/
  | mulh (rd rs1 rs2 : XReg)
  /-- MULHSU: R243 -/
  | mulhsu (rd rs1 rs2 : XReg)
  /-- MULHU: R244 -/
  | mulhu (rd rs1 rs2 : XReg)
  /-- DIV: R245 -/
  | div (rd rs1 rs2 : XReg)
  /-- DIVU: R246 -/
  | divu (rd rs1 rs2 : XReg)
  /-- REM: R247 -/
  | rem (rd rs1 rs2 : XReg)
  /-- REMU: R248 -/
  | remu (rd rs1 rs2 : XReg)
  -- table RV64M (`42_m_muldiv.md`)
  /-- MULW: R249 -/
  | mulw (rd rs1 rs2 : XReg)
  /-- DIVW: R250 -/
  | divw (rd rs1 rs2 : XReg)
  /-- DIVUW: R251 -/
  | divuw (rd rs1 rs2 : XReg)
  /-- REMW: R252 -/
  | remw (rd rs1 rs2 : XReg)
  /-- REMUW: R253 -/
  | remuw (rd rs1 rs2 : XReg)
  -- table RV32A (`43_a_atomics.md`)
  /-- LR.W: R264 -/
  | lrW (aq rl : Bool) (rd rs1 : XReg)
  /-- SC.W: R265 -/
  | scW (aq rl : Bool) (rd rs1 rs2 : XReg)
  /-- AMOSWAP.W: R266 -/
  | amoswapW (aq rl : Bool) (rd rs1 rs2 : XReg)
  /-- AMOADD.W: R267 -/
  | amoaddW (aq rl : Bool) (rd rs1 rs2 : XReg)
  /-- AMOXOR.W: R268 -/
  | amoxorW (aq rl : Bool) (rd rs1 rs2 : XReg)
  /-- AMOOR.W: R269 -/
  | amoorW (aq rl : Bool) (rd rs1 rs2 : XReg)
  /-- AMOAND.W: R270 -/
  | amoandW (aq rl : Bool) (rd rs1 rs2 : XReg)
  /-- AMOMIN.W: R271 -/
  | amominW (aq rl : Bool) (rd rs1 rs2 : XReg)
  /-- AMOMAX.W: R272 -/
  | amomaxW (aq rl : Bool) (rd rs1 rs2 : XReg)
  /-- AMOMINU.W: R273 -/
  | amominuW (aq rl : Bool) (rd rs1 rs2 : XReg)
  /-- AMOMAXU.W: R274 -/
  | amomaxuW (aq rl : Bool) (rd rs1 rs2 : XReg)
  -- table RV64A (`43_a_atomics.md`)
  /-- LR.D: R275 -/
  | lrD (aq rl : Bool) (rd rs1 : XReg)
  /-- SC.D: R276 -/
  | scD (aq rl : Bool) (rd rs1 rs2 : XReg)
  /-- AMOSWAP.D: R277 -/
  | amoswapD (aq rl : Bool) (rd rs1 rs2 : XReg)
  /-- AMOADD.D: R278 -/
  | amoaddD (aq rl : Bool) (rd rs1 rs2 : XReg)
  /-- AMOXOR.D: R279 -/
  | amoxorD (aq rl : Bool) (rd rs1 rs2 : XReg)
  /-- AMOOR.D: R280 -/
  | amoorD (aq rl : Bool) (rd rs1 rs2 : XReg)
  /-- AMOAND.D: R281 -/
  | amoandD (aq rl : Bool) (rd rs1 rs2 : XReg)
  /-- AMOMIN.D: R282 -/
  | amominD (aq rl : Bool) (rd rs1 rs2 : XReg)
  /-- AMOMAX.D: R283 -/
  | amomaxD (aq rl : Bool) (rd rs1 rs2 : XReg)
  /-- AMOMINU.D: R284 -/
  | amominuD (aq rl : Bool) (rd rs1 rs2 : XReg)
  /-- AMOMAXU.D: R285 -/
  | amomaxuD (aq rl : Bool) (rd rs1 rs2 : XReg)
  -- table RV32F (`44_f_single.md`)
  /-- FLW: R310 -/
  | flw (rd : FReg) (rs1 : XReg) (imm : BitVec 12)
  /-- FSW: R311 -/
  | fsw (rs1 : XReg) (rs2 : FReg) (imm : BitVec 12)
  /-- FMADD.S: R312 -/
  | fmaddS (rm : BitVec 3) (rd rs1 rs2 rs3 : FReg)
  /-- FMSUB.S: R313 -/
  | fmsubS (rm : BitVec 3) (rd rs1 rs2 rs3 : FReg)
  /-- FNMSUB.S: R314 -/
  | fnmsubS (rm : BitVec 3) (rd rs1 rs2 rs3 : FReg)
  /-- FNMADD.S: R315 -/
  | fnmaddS (rm : BitVec 3) (rd rs1 rs2 rs3 : FReg)
  /-- FADD.S: R316 -/
  | faddS (rm : BitVec 3) (rd rs1 rs2 : FReg)
  /-- FSUB.S: R317 -/
  | fsubS (rm : BitVec 3) (rd rs1 rs2 : FReg)
  /-- FMUL.S: R318 -/
  | fmulS (rm : BitVec 3) (rd rs1 rs2 : FReg)
  /-- FDIV.S: R319 -/
  | fdivS (rm : BitVec 3) (rd rs1 rs2 : FReg)
  /-- FSGNJ.S: R320 -/
  | fsgnjS (rd rs1 rs2 : FReg)
  /-- FSGNJN.S: R321 -/
  | fsgnjnS (rd rs1 rs2 : FReg)
  /-- FSGNJX.S: R322 -/
  | fsgnjxS (rd rs1 rs2 : FReg)
  /-- FMIN.S: R323 -/
  | fminS (rd rs1 rs2 : FReg)
  /-- FMAX.S: R324 -/
  | fmaxS (rd rs1 rs2 : FReg)
  /-- FSQRT.S: R325 -/
  | fsqrtS (rm : BitVec 3) (rd rs1 : FReg)
  /-- FLE.S: R326 -/
  | fleS (rd : XReg) (rs1 rs2 : FReg)
  /-- FLT.S: R327 -/
  | fltS (rd : XReg) (rs1 rs2 : FReg)
  /-- FEQ.S: R328 -/
  | feqS (rd : XReg) (rs1 rs2 : FReg)
  /-- FCVT.W.S: R329 -/
  | fcvtWS (rm : BitVec 3) (rd : XReg) (rs1 : FReg)
  /-- FCVT.WU.S: R330 -/
  | fcvtWuS (rm : BitVec 3) (rd : XReg) (rs1 : FReg)
  /-- FCVT.S.W: R331 -/
  | fcvtSW (rm : BitVec 3) (rd : FReg) (rs1 : XReg)
  /-- FCVT.S.WU: R332 -/
  | fcvtSWu (rm : BitVec 3) (rd : FReg) (rs1 : XReg)
  /-- FMV.X.S: R333 -/
  | fmvXS (rd : XReg) (rs1 : FReg)
  /-- FCLASS.S: R334 -/
  | fclassS (rd : XReg) (rs1 : FReg)
  /-- FMV.S.X: R335 -/
  | fmvSX (rd : FReg) (rs1 : XReg)
  /-- FRCSR: R336 -/
  | frcsr (rd : XReg)
  /-- FRRM: R337 -/
  | frrm (rd : XReg)
  /-- FRFLAGS: R338 -/
  | frflags (rd : XReg)
  /-- FSCSR: R339 -/
  | fscsr (rd rs1 : XReg)
  /-- FSRM: R340 -/
  | fsrm (rd rs1 : XReg)
  /-- FSFLAGS: R341 -/
  | fsflags (rd rs1 : XReg)
  /-- FSRMI: R342 -/
  | fsrmi (rd : XReg) (uimm : BitVec 5)
  /-- FSFLAGSI: R343 -/
  | fsflagsi (rd : XReg) (uimm : BitVec 5)
  -- table RV64F (`44_f_single.md`)
  /-- FCVT.L.S: R344 -/
  | fcvtLS (rm : BitVec 3) (rd : XReg) (rs1 : FReg)
  /-- FCVT.LU.S: R345 -/
  | fcvtLuS (rm : BitVec 3) (rd : XReg) (rs1 : FReg)
  /-- FCVT.S.L: R346 -/
  | fcvtSL (rm : BitVec 3) (rd : FReg) (rs1 : XReg)
  /-- FCVT.S.LU: R347 -/
  | fcvtSLu (rm : BitVec 3) (rd : FReg) (rs1 : XReg)
  -- table RV32D (`45_d_double.md`)
  /-- FLD: R372 -/
  | fld (rd : FReg) (rs1 : XReg) (imm : BitVec 12)
  /-- FSD: R373 -/
  | fsd (rs1 : XReg) (rs2 : FReg) (imm : BitVec 12)
  /-- FMADD.D: R374 -/
  | fmaddD (rm : BitVec 3) (rd rs1 rs2 rs3 : FReg)
  /-- FMSUB.D: R375 -/
  | fmsubD (rm : BitVec 3) (rd rs1 rs2 rs3 : FReg)
  /-- FNMSUB.D: R376 -/
  | fnmsubD (rm : BitVec 3) (rd rs1 rs2 rs3 : FReg)
  /-- FNMADD.D: R377 -/
  | fnmaddD (rm : BitVec 3) (rd rs1 rs2 rs3 : FReg)
  /-- FADD.D: R378 -/
  | faddD (rm : BitVec 3) (rd rs1 rs2 : FReg)
  /-- FSUB.D: R379 -/
  | fsubD (rm : BitVec 3) (rd rs1 rs2 : FReg)
  /-- FMUL.D: R380 -/
  | fmulD (rm : BitVec 3) (rd rs1 rs2 : FReg)
  /-- FDIV.D: R381 -/
  | fdivD (rm : BitVec 3) (rd rs1 rs2 : FReg)
  /-- FSGNJ.D: R382 -/
  | fsgnjD (rd rs1 rs2 : FReg)
  /-- FSGNJN.D: R383 -/
  | fsgnjnD (rd rs1 rs2 : FReg)
  /-- FSGNJX.D: R384 -/
  | fsgnjxD (rd rs1 rs2 : FReg)
  /-- FMIN.D: R385 -/
  | fminD (rd rs1 rs2 : FReg)
  /-- FMAX.D: R386 -/
  | fmaxD (rd rs1 rs2 : FReg)
  /-- FSQRT.D: R387 -/
  | fsqrtD (rm : BitVec 3) (rd rs1 : FReg)
  /-- FLE.D: R388 -/
  | fleD (rd : XReg) (rs1 rs2 : FReg)
  /-- FLT.D: R389 -/
  | fltD (rd : XReg) (rs1 rs2 : FReg)
  /-- FEQ.D: R390 -/
  | feqD (rd : XReg) (rs1 rs2 : FReg)
  /-- FCVT.W.D: R391 -/
  | fcvtWD (rm : BitVec 3) (rd : XReg) (rs1 : FReg)
  /-- FCVT.WU.D: R392 -/
  | fcvtWuD (rm : BitVec 3) (rd : XReg) (rs1 : FReg)
  /-- FCVT.D.W: R393 -/
  | fcvtDW (rm : BitVec 3) (rd : FReg) (rs1 : XReg)
  /-- FCVT.D.WU: R394 -/
  | fcvtDWu (rm : BitVec 3) (rd : FReg) (rs1 : XReg)
  /-- FCLASS.D: R395 -/
  | fclassD (rd : XReg) (rs1 : FReg)
  -- table RV64D (`45_d_double.md`)
  /-- FCVT.L.D: R396 -/
  | fcvtLD (rm : BitVec 3) (rd : XReg) (rs1 : FReg)
  /-- FCVT.LU.D: R397 -/
  | fcvtLuD (rm : BitVec 3) (rd : XReg) (rs1 : FReg)
  /-- FCVT.D.L: R398 -/
  | fcvtDL (rm : BitVec 3) (rd : FReg) (rs1 : XReg)
  /-- FCVT.D.LU: R399 -/
  | fcvtDLu (rm : BitVec 3) (rd : FReg) (rs1 : XReg)
  /-- FMV.X.D: R400 -/
  | fmvXD (rd : XReg) (rs1 : FReg)
  /-- FMV.D.X: R401 -/
  | fmvDX (rd : FReg) (rs1 : XReg)
deriving DecidableEq, Repr

end Sys2Proof
end

