-- ==== Sys2Proof/Decode.lean ====
section
/-! DEFINITION. Decoding and encoding, written from `opcode_table.json` (the corrected table; `30_encoding.md` R126):
the fields of a word, the immediates, the rows, the decoder (total on any word and on any bytes, refusing by name),
and the encoder. -/

namespace Sys2Proof

/-- `inst[lo+k-1 : lo]` (`00_scope.md` R6). -/
def field (w : InstWord) (lo k : Nat) : BitVec k := w.extractLsb' lo k

/-- The word whose bits from `lo` up are `v` and whose other bits are zero. -/
def place {k : Nat} (lo : Nat) (v : BitVec k) : InstWord := v.setWidth 32 <<< lo

/-! ### The fields (`30_encoding.md` R111, R112, R121, R122) -/

/-- `rd`, `inst[11:7]` -/
def rdField (w : InstWord) : BitVec 5 := field w 7 5
/-- `rs1`, `inst[19:15]` -/
def rs1Field (w : InstWord) : BitVec 5 := field w 15 5
/-- `rs2`, `inst[24:20]` -/
def rs2Field (w : InstWord) : BitVec 5 := field w 20 5
/-- `rs3`, `inst[31:27]` -/
def rs3Field (w : InstWord) : BitVec 5 := field w 27 5
/-- `rm`, `inst[14:12]` -/
def rmField (w : InstWord) : BitVec 3 := field w 12 3
/-- `aq`, `inst[26]` -/
def aqBit (w : InstWord) : Bool := w.getLsbD 26
/-- `rl`, `inst[25]` -/
def rlBit (w : InstWord) : Bool := w.getLsbD 25
/-- `pred`, `inst[27:24]` -/
def predField (w : InstWord) : BitVec 4 := field w 24 4
/-- `succ`, `inst[23:20]` -/
def succField (w : InstWord) : BitVec 4 := field w 20 4
/-- `uimm`, `inst[19:15]` (R122) -/
def uimmField (w : InstWord) : BitVec 5 := field w 15 5
/-- the shift amount of an I-shift5 row, `inst[24:20]` (R121) -/
def shamt5 (w : InstWord) : BitVec 5 := field w 20 5
/-- the shift amount of an I-shift6 row, `inst[25:20]` (R121) -/
def shamt6 (w : InstWord) : BitVec 6 := field w 20 6

/-! ### The immediates, before extension (`30_encoding.md` R116 to R120) -/

/-- I format: `inst[31:20]` (R116). -/
def immI (w : InstWord) : BitVec 12 := field w 20 12
/-- S format: `{inst[31:25], inst[11:7]}` (R117). -/
def immS (w : InstWord) : BitVec 12 := field w 25 7 ++ field w 7 5
/-- B format: `{inst[31], inst[7], inst[30:25], inst[11:8], 0}` (R118). -/
def immB (w : InstWord) : BitVec 13 := field w 31 1 ++ field w 7 1 ++ field w 25 6 ++ field w 8 4 ++ 0#1
/-- U format: the 20 bits `inst[31:12]` (R119). -/
def immU (w : InstWord) : BitVec 20 := field w 12 20
/-- J format: `{inst[31], inst[19:12], inst[20], inst[30:21], 0}` (R120). -/
def immJ (w : InstWord) : BitVec 21 := field w 31 1 ++ field w 12 8 ++ field w 20 1 ++ field w 21 10 ++ 0#1

/-! ### The opcode table -/

/-- One row of `opcode_table.json`: its mnemonic, the `XLEN` values it exists for, its `mask` and `match`, and the
instruction it reads from a word (R126). -/
structure Row where
  mnemonic : String
  xlens : List XLen
  mask : InstWord
  pattern : InstWord
  build : InstWord → Instr

/-- The row exists for this `XLEN` and `(w & mask) == match` (R126). -/
def Row.accepts (r : Row) (x : XLen) (w : InstWord) : Bool :=
  r.xlens.contains x && (w &&& r.mask == r.pattern)

/-- The row exists for `XLEN = 32` and `XLEN = 64`. -/
def both : List XLen := [.rv32, .rv64]
/-- The row exists for `XLEN = 32` only. -/
def only32 : List XLen := [.rv32]
/-- The row exists for `XLEN = 64` only. -/
def only64 : List XLen := [.rv64]

/-- Table RV32I (`40_rv32i.md`). -/
def rowsRV32I : List Row :=
  [⟨"LUI", both, 0x0000007F, 0x00000037, fun w => .lui ⟨rdField w⟩ (immU w)⟩,
   ⟨"AUIPC", both, 0x0000007F, 0x00000017, fun w => .auipc ⟨rdField w⟩ (immU w)⟩,
   ⟨"JAL", both, 0x0000007F, 0x0000006F, fun w => .jal ⟨rdField w⟩ (immJ w)⟩,
   ⟨"JALR", both, 0x0000707F, 0x00000067, fun w => .jalr ⟨rdField w⟩ ⟨rs1Field w⟩ (immI w)⟩,
   ⟨"BEQ", both, 0x0000707F, 0x00000063, fun w => .beq ⟨rs1Field w⟩ ⟨rs2Field w⟩ (immB w)⟩,
   ⟨"BNE", both, 0x0000707F, 0x00001063, fun w => .bne ⟨rs1Field w⟩ ⟨rs2Field w⟩ (immB w)⟩,
   ⟨"BLT", both, 0x0000707F, 0x00004063, fun w => .blt ⟨rs1Field w⟩ ⟨rs2Field w⟩ (immB w)⟩,
   ⟨"BGE", both, 0x0000707F, 0x00005063, fun w => .bge ⟨rs1Field w⟩ ⟨rs2Field w⟩ (immB w)⟩,
   ⟨"BLTU", both, 0x0000707F, 0x00006063, fun w => .bltu ⟨rs1Field w⟩ ⟨rs2Field w⟩ (immB w)⟩,
   ⟨"BGEU", both, 0x0000707F, 0x00007063, fun w => .bgeu ⟨rs1Field w⟩ ⟨rs2Field w⟩ (immB w)⟩,
   ⟨"LB", both, 0x0000707F, 0x00000003, fun w => .lb ⟨rdField w⟩ ⟨rs1Field w⟩ (immI w)⟩,
   ⟨"LH", both, 0x0000707F, 0x00001003, fun w => .lh ⟨rdField w⟩ ⟨rs1Field w⟩ (immI w)⟩,
   ⟨"LW", both, 0x0000707F, 0x00002003, fun w => .lw ⟨rdField w⟩ ⟨rs1Field w⟩ (immI w)⟩,
   ⟨"LBU", both, 0x0000707F, 0x00004003, fun w => .lbu ⟨rdField w⟩ ⟨rs1Field w⟩ (immI w)⟩,
   ⟨"LHU", both, 0x0000707F, 0x00005003, fun w => .lhu ⟨rdField w⟩ ⟨rs1Field w⟩ (immI w)⟩,
   ⟨"SB", both, 0x0000707F, 0x00000023, fun w => .sb ⟨rs1Field w⟩ ⟨rs2Field w⟩ (immS w)⟩,
   ⟨"SH", both, 0x0000707F, 0x00001023, fun w => .sh ⟨rs1Field w⟩ ⟨rs2Field w⟩ (immS w)⟩,
   ⟨"SW", both, 0x0000707F, 0x00002023, fun w => .sw ⟨rs1Field w⟩ ⟨rs2Field w⟩ (immS w)⟩,
   ⟨"ADDI", both, 0x0000707F, 0x00000013, fun w => .addi ⟨rdField w⟩ ⟨rs1Field w⟩ (immI w)⟩,
   ⟨"SLTI", both, 0x0000707F, 0x00002013, fun w => .slti ⟨rdField w⟩ ⟨rs1Field w⟩ (immI w)⟩,
   ⟨"SLTIU", both, 0x0000707F, 0x00003013, fun w => .sltiu ⟨rdField w⟩ ⟨rs1Field w⟩ (immI w)⟩,
   ⟨"XORI", both, 0x0000707F, 0x00004013, fun w => .xori ⟨rdField w⟩ ⟨rs1Field w⟩ (immI w)⟩,
   ⟨"ORI", both, 0x0000707F, 0x00006013, fun w => .ori ⟨rdField w⟩ ⟨rs1Field w⟩ (immI w)⟩,
   ⟨"ANDI", both, 0x0000707F, 0x00007013, fun w => .andi ⟨rdField w⟩ ⟨rs1Field w⟩ (immI w)⟩,
   ⟨"SLLI", only32, 0xFE00707F, 0x00001013, fun w => .slli32 ⟨rdField w⟩ ⟨rs1Field w⟩ (shamt5 w)⟩,
   ⟨"SRLI", only32, 0xFE00707F, 0x00005013, fun w => .srli32 ⟨rdField w⟩ ⟨rs1Field w⟩ (shamt5 w)⟩,
   ⟨"SRAI", only32, 0xFE00707F, 0x40005013, fun w => .srai32 ⟨rdField w⟩ ⟨rs1Field w⟩ (shamt5 w)⟩,
   ⟨"ADD", both, 0xFE00707F, 0x00000033, fun w => .add ⟨rdField w⟩ ⟨rs1Field w⟩ ⟨rs2Field w⟩⟩,
   ⟨"SUB", both, 0xFE00707F, 0x40000033, fun w => .sub ⟨rdField w⟩ ⟨rs1Field w⟩ ⟨rs2Field w⟩⟩,
   ⟨"SLL", both, 0xFE00707F, 0x00001033, fun w => .sll ⟨rdField w⟩ ⟨rs1Field w⟩ ⟨rs2Field w⟩⟩,
   ⟨"SLT", both, 0xFE00707F, 0x00002033, fun w => .slt ⟨rdField w⟩ ⟨rs1Field w⟩ ⟨rs2Field w⟩⟩,
   ⟨"SLTU", both, 0xFE00707F, 0x00003033, fun w => .sltu ⟨rdField w⟩ ⟨rs1Field w⟩ ⟨rs2Field w⟩⟩,
   ⟨"XOR", both, 0xFE00707F, 0x00004033, fun w => .xor ⟨rdField w⟩ ⟨rs1Field w⟩ ⟨rs2Field w⟩⟩,
   ⟨"SRL", both, 0xFE00707F, 0x00005033, fun w => .srl ⟨rdField w⟩ ⟨rs1Field w⟩ ⟨rs2Field w⟩⟩,
   ⟨"SRA", both, 0xFE00707F, 0x40005033, fun w => .sra ⟨rdField w⟩ ⟨rs1Field w⟩ ⟨rs2Field w⟩⟩,
   ⟨"OR", both, 0xFE00707F, 0x00006033, fun w => .or ⟨rdField w⟩ ⟨rs1Field w⟩ ⟨rs2Field w⟩⟩,
   ⟨"AND", both, 0xFE00707F, 0x00007033, fun w => .and ⟨rdField w⟩ ⟨rs1Field w⟩ ⟨rs2Field w⟩⟩,
   ⟨"FENCE", both, 0xF00FFFFF, 0x0000000F, fun w => .fence (predField w) (succField w)⟩,
   ⟨"FENCE.I", both, 0xF7FFFFFF, 0x0000100F, fun _ => .fenceI⟩,
   ⟨"ECALL", both, 0xFFFFFFFF, 0x00000073, fun _ => .ecall⟩,
   ⟨"EBREAK", both, 0xFFFFFFFF, 0x00100073, fun _ => .ebreak⟩]

/-- Table RV64I (`41_rv64i.md`). -/
def rowsRV64I : List Row :=
  [⟨"LWU", only64, 0x0000707F, 0x00006003, fun w => .lwu ⟨rdField w⟩ ⟨rs1Field w⟩ (immI w)⟩,
   ⟨"LD", only64, 0x0000707F, 0x00003003, fun w => .ld ⟨rdField w⟩ ⟨rs1Field w⟩ (immI w)⟩,
   ⟨"SD", only64, 0x0000707F, 0x00003023, fun w => .sd ⟨rs1Field w⟩ ⟨rs2Field w⟩ (immS w)⟩,
   ⟨"SLLI", only64, 0xFC00707F, 0x00001013, fun w => .slli64 ⟨rdField w⟩ ⟨rs1Field w⟩ (shamt6 w)⟩,
   ⟨"SRLI", only64, 0xFC00707F, 0x00005013, fun w => .srli64 ⟨rdField w⟩ ⟨rs1Field w⟩ (shamt6 w)⟩,
   ⟨"SRAI", only64, 0xFC00707F, 0x40005013, fun w => .srai64 ⟨rdField w⟩ ⟨rs1Field w⟩ (shamt6 w)⟩,
   ⟨"ADDIW", only64, 0x0000707F, 0x0000001B, fun w => .addiw ⟨rdField w⟩ ⟨rs1Field w⟩ (immI w)⟩,
   ⟨"SLLIW", only64, 0xFE00707F, 0x0000101B, fun w => .slliw ⟨rdField w⟩ ⟨rs1Field w⟩ (shamt5 w)⟩,
   ⟨"SRLIW", only64, 0xFE00707F, 0x0000501B, fun w => .srliw ⟨rdField w⟩ ⟨rs1Field w⟩ (shamt5 w)⟩,
   ⟨"SRAIW", only64, 0xFE00707F, 0x4000501B, fun w => .sraiw ⟨rdField w⟩ ⟨rs1Field w⟩ (shamt5 w)⟩,
   ⟨"ADDW", only64, 0xFE00707F, 0x0000003B, fun w => .addw ⟨rdField w⟩ ⟨rs1Field w⟩ ⟨rs2Field w⟩⟩,
   ⟨"SUBW", only64, 0xFE00707F, 0x4000003B, fun w => .subw ⟨rdField w⟩ ⟨rs1Field w⟩ ⟨rs2Field w⟩⟩,
   ⟨"SLLW", only64, 0xFE00707F, 0x0000103B, fun w => .sllw ⟨rdField w⟩ ⟨rs1Field w⟩ ⟨rs2Field w⟩⟩,
   ⟨"SRLW", only64, 0xFE00707F, 0x0000503B, fun w => .srlw ⟨rdField w⟩ ⟨rs1Field w⟩ ⟨rs2Field w⟩⟩,
   ⟨"SRAW", only64, 0xFE00707F, 0x4000503B, fun w => .sraw ⟨rdField w⟩ ⟨rs1Field w⟩ ⟨rs2Field w⟩⟩]

/-- Table RV32M (`42_m_muldiv.md`). -/
def rowsRV32M : List Row :=
  [⟨"MUL", both, 0xFE00707F, 0x02000033, fun w => .mul ⟨rdField w⟩ ⟨rs1Field w⟩ ⟨rs2Field w⟩⟩,
   ⟨"MULH", both, 0xFE00707F, 0x02001033, fun w => .mulh ⟨rdField w⟩ ⟨rs1Field w⟩ ⟨rs2Field w⟩⟩,
   ⟨"MULHSU", both, 0xFE00707F, 0x02002033, fun w => .mulhsu ⟨rdField w⟩ ⟨rs1Field w⟩ ⟨rs2Field w⟩⟩,
   ⟨"MULHU", both, 0xFE00707F, 0x02003033, fun w => .mulhu ⟨rdField w⟩ ⟨rs1Field w⟩ ⟨rs2Field w⟩⟩,
   ⟨"DIV", both, 0xFE00707F, 0x02004033, fun w => .div ⟨rdField w⟩ ⟨rs1Field w⟩ ⟨rs2Field w⟩⟩,
   ⟨"DIVU", both, 0xFE00707F, 0x02005033, fun w => .divu ⟨rdField w⟩ ⟨rs1Field w⟩ ⟨rs2Field w⟩⟩,
   ⟨"REM", both, 0xFE00707F, 0x02006033, fun w => .rem ⟨rdField w⟩ ⟨rs1Field w⟩ ⟨rs2Field w⟩⟩,
   ⟨"REMU", both, 0xFE00707F, 0x02007033, fun w => .remu ⟨rdField w⟩ ⟨rs1Field w⟩ ⟨rs2Field w⟩⟩]

/-- Table RV64M (`42_m_muldiv.md`). -/
def rowsRV64M : List Row :=
  [⟨"MULW", only64, 0xFE00707F, 0x0200003B, fun w => .mulw ⟨rdField w⟩ ⟨rs1Field w⟩ ⟨rs2Field w⟩⟩,
   ⟨"DIVW", only64, 0xFE00707F, 0x0200403B, fun w => .divw ⟨rdField w⟩ ⟨rs1Field w⟩ ⟨rs2Field w⟩⟩,
   ⟨"DIVUW", only64, 0xFE00707F, 0x0200503B, fun w => .divuw ⟨rdField w⟩ ⟨rs1Field w⟩ ⟨rs2Field w⟩⟩,
   ⟨"REMW", only64, 0xFE00707F, 0x0200603B, fun w => .remw ⟨rdField w⟩ ⟨rs1Field w⟩ ⟨rs2Field w⟩⟩,
   ⟨"REMUW", only64, 0xFE00707F, 0x0200703B, fun w => .remuw ⟨rdField w⟩ ⟨rs1Field w⟩ ⟨rs2Field w⟩⟩]

/-- Table RV32A (`43_a_atomics.md`). -/
def rowsRV32A : List Row :=
  [⟨"LR.W", both, 0xF9F0707F, 0x1000202F, fun w => .lrW (aqBit w) (rlBit w) ⟨rdField w⟩ ⟨rs1Field w⟩⟩,
   ⟨"SC.W", both, 0xF800707F, 0x1800202F, fun w => .scW (aqBit w) (rlBit w) ⟨rdField w⟩ ⟨rs1Field w⟩ ⟨rs2Field w⟩⟩,
   ⟨"AMOSWAP.W", both, 0xF800707F, 0x0800202F, fun w => .amoswapW (aqBit w) (rlBit w) ⟨rdField w⟩ ⟨rs1Field w⟩ ⟨rs2Field w⟩⟩,
   ⟨"AMOADD.W", both, 0xF800707F, 0x0000202F, fun w => .amoaddW (aqBit w) (rlBit w) ⟨rdField w⟩ ⟨rs1Field w⟩ ⟨rs2Field w⟩⟩,
   ⟨"AMOXOR.W", both, 0xF800707F, 0x2000202F, fun w => .amoxorW (aqBit w) (rlBit w) ⟨rdField w⟩ ⟨rs1Field w⟩ ⟨rs2Field w⟩⟩,
   ⟨"AMOOR.W", both, 0xF800707F, 0x4000202F, fun w => .amoorW (aqBit w) (rlBit w) ⟨rdField w⟩ ⟨rs1Field w⟩ ⟨rs2Field w⟩⟩,
   ⟨"AMOAND.W", both, 0xF800707F, 0x6000202F, fun w => .amoandW (aqBit w) (rlBit w) ⟨rdField w⟩ ⟨rs1Field w⟩ ⟨rs2Field w⟩⟩,
   ⟨"AMOMIN.W", both, 0xF800707F, 0x8000202F, fun w => .amominW (aqBit w) (rlBit w) ⟨rdField w⟩ ⟨rs1Field w⟩ ⟨rs2Field w⟩⟩,
   ⟨"AMOMAX.W", both, 0xF800707F, 0xA000202F, fun w => .amomaxW (aqBit w) (rlBit w) ⟨rdField w⟩ ⟨rs1Field w⟩ ⟨rs2Field w⟩⟩,
   ⟨"AMOMINU.W", both, 0xF800707F, 0xC000202F, fun w => .amominuW (aqBit w) (rlBit w) ⟨rdField w⟩ ⟨rs1Field w⟩ ⟨rs2Field w⟩⟩,
   ⟨"AMOMAXU.W", both, 0xF800707F, 0xE000202F, fun w => .amomaxuW (aqBit w) (rlBit w) ⟨rdField w⟩ ⟨rs1Field w⟩ ⟨rs2Field w⟩⟩]

/-- Table RV64A (`43_a_atomics.md`). -/
def rowsRV64A : List Row :=
  [⟨"LR.D", only64, 0xF9F0707F, 0x1000302F, fun w => .lrD (aqBit w) (rlBit w) ⟨rdField w⟩ ⟨rs1Field w⟩⟩,
   ⟨"SC.D", only64, 0xF800707F, 0x1800302F, fun w => .scD (aqBit w) (rlBit w) ⟨rdField w⟩ ⟨rs1Field w⟩ ⟨rs2Field w⟩⟩,
   ⟨"AMOSWAP.D", only64, 0xF800707F, 0x0800302F, fun w => .amoswapD (aqBit w) (rlBit w) ⟨rdField w⟩ ⟨rs1Field w⟩ ⟨rs2Field w⟩⟩,
   ⟨"AMOADD.D", only64, 0xF800707F, 0x0000302F, fun w => .amoaddD (aqBit w) (rlBit w) ⟨rdField w⟩ ⟨rs1Field w⟩ ⟨rs2Field w⟩⟩,
   ⟨"AMOXOR.D", only64, 0xF800707F, 0x2000302F, fun w => .amoxorD (aqBit w) (rlBit w) ⟨rdField w⟩ ⟨rs1Field w⟩ ⟨rs2Field w⟩⟩,
   ⟨"AMOOR.D", only64, 0xF800707F, 0x4000302F, fun w => .amoorD (aqBit w) (rlBit w) ⟨rdField w⟩ ⟨rs1Field w⟩ ⟨rs2Field w⟩⟩,
   ⟨"AMOAND.D", only64, 0xF800707F, 0x6000302F, fun w => .amoandD (aqBit w) (rlBit w) ⟨rdField w⟩ ⟨rs1Field w⟩ ⟨rs2Field w⟩⟩,
   ⟨"AMOMIN.D", only64, 0xF800707F, 0x8000302F, fun w => .amominD (aqBit w) (rlBit w) ⟨rdField w⟩ ⟨rs1Field w⟩ ⟨rs2Field w⟩⟩,
   ⟨"AMOMAX.D", only64, 0xF800707F, 0xA000302F, fun w => .amomaxD (aqBit w) (rlBit w) ⟨rdField w⟩ ⟨rs1Field w⟩ ⟨rs2Field w⟩⟩,
   ⟨"AMOMINU.D", only64, 0xF800707F, 0xC000302F, fun w => .amominuD (aqBit w) (rlBit w) ⟨rdField w⟩ ⟨rs1Field w⟩ ⟨rs2Field w⟩⟩,
   ⟨"AMOMAXU.D", only64, 0xF800707F, 0xE000302F, fun w => .amomaxuD (aqBit w) (rlBit w) ⟨rdField w⟩ ⟨rs1Field w⟩ ⟨rs2Field w⟩⟩]

/-- Table RV32F (`44_f_single.md`). -/
def rowsRV32F : List Row :=
  [⟨"FLW", both, 0x0000707F, 0x00002007, fun w => .flw ⟨rdField w⟩ ⟨rs1Field w⟩ (immI w)⟩,
   ⟨"FSW", both, 0x0000707F, 0x00002027, fun w => .fsw ⟨rs1Field w⟩ ⟨rs2Field w⟩ (immS w)⟩,
   ⟨"FMADD.S", both, 0x0600007F, 0x00000043, fun w => .fmaddS (rmField w) ⟨rdField w⟩ ⟨rs1Field w⟩ ⟨rs2Field w⟩ ⟨rs3Field w⟩⟩,
   ⟨"FMSUB.S", both, 0x0600007F, 0x00000047, fun w => .fmsubS (rmField w) ⟨rdField w⟩ ⟨rs1Field w⟩ ⟨rs2Field w⟩ ⟨rs3Field w⟩⟩,
   ⟨"FNMSUB.S", both, 0x0600007F, 0x0000004B, fun w => .fnmsubS (rmField w) ⟨rdField w⟩ ⟨rs1Field w⟩ ⟨rs2Field w⟩ ⟨rs3Field w⟩⟩,
   ⟨"FNMADD.S", both, 0x0600007F, 0x0000004F, fun w => .fnmaddS (rmField w) ⟨rdField w⟩ ⟨rs1Field w⟩ ⟨rs2Field w⟩ ⟨rs3Field w⟩⟩,
   ⟨"FADD.S", both, 0xFE00007F, 0x00000053, fun w => .faddS (rmField w) ⟨rdField w⟩ ⟨rs1Field w⟩ ⟨rs2Field w⟩⟩,
   ⟨"FSUB.S", both, 0xFE00007F, 0x08000053, fun w => .fsubS (rmField w) ⟨rdField w⟩ ⟨rs1Field w⟩ ⟨rs2Field w⟩⟩,
   ⟨"FMUL.S", both, 0xFE00007F, 0x10000053, fun w => .fmulS (rmField w) ⟨rdField w⟩ ⟨rs1Field w⟩ ⟨rs2Field w⟩⟩,
   ⟨"FDIV.S", both, 0xFE00007F, 0x18000053, fun w => .fdivS (rmField w) ⟨rdField w⟩ ⟨rs1Field w⟩ ⟨rs2Field w⟩⟩,
   ⟨"FSGNJ.S", both, 0xFE00707F, 0x20000053, fun w => .fsgnjS ⟨rdField w⟩ ⟨rs1Field w⟩ ⟨rs2Field w⟩⟩,
   ⟨"FSGNJN.S", both, 0xFE00707F, 0x20001053, fun w => .fsgnjnS ⟨rdField w⟩ ⟨rs1Field w⟩ ⟨rs2Field w⟩⟩,
   ⟨"FSGNJX.S", both, 0xFE00707F, 0x20002053, fun w => .fsgnjxS ⟨rdField w⟩ ⟨rs1Field w⟩ ⟨rs2Field w⟩⟩,
   ⟨"FMIN.S", both, 0xFE00707F, 0x28000053, fun w => .fminS ⟨rdField w⟩ ⟨rs1Field w⟩ ⟨rs2Field w⟩⟩,
   ⟨"FMAX.S", both, 0xFE00707F, 0x28001053, fun w => .fmaxS ⟨rdField w⟩ ⟨rs1Field w⟩ ⟨rs2Field w⟩⟩,
   ⟨"FSQRT.S", both, 0xFFF0007F, 0x58000053, fun w => .fsqrtS (rmField w) ⟨rdField w⟩ ⟨rs1Field w⟩⟩,
   ⟨"FLE.S", both, 0xFE00707F, 0xA0000053, fun w => .fleS ⟨rdField w⟩ ⟨rs1Field w⟩ ⟨rs2Field w⟩⟩,
   ⟨"FLT.S", both, 0xFE00707F, 0xA0001053, fun w => .fltS ⟨rdField w⟩ ⟨rs1Field w⟩ ⟨rs2Field w⟩⟩,
   ⟨"FEQ.S", both, 0xFE00707F, 0xA0002053, fun w => .feqS ⟨rdField w⟩ ⟨rs1Field w⟩ ⟨rs2Field w⟩⟩,
   ⟨"FCVT.W.S", both, 0xFFF0007F, 0xC0000053, fun w => .fcvtWS (rmField w) ⟨rdField w⟩ ⟨rs1Field w⟩⟩,
   ⟨"FCVT.WU.S", both, 0xFFF0007F, 0xC0100053, fun w => .fcvtWuS (rmField w) ⟨rdField w⟩ ⟨rs1Field w⟩⟩,
   ⟨"FCVT.S.W", both, 0xFFF0007F, 0xD0000053, fun w => .fcvtSW (rmField w) ⟨rdField w⟩ ⟨rs1Field w⟩⟩,
   ⟨"FCVT.S.WU", both, 0xFFF0007F, 0xD0100053, fun w => .fcvtSWu (rmField w) ⟨rdField w⟩ ⟨rs1Field w⟩⟩,
   ⟨"FMV.X.S", both, 0xFFF0707F, 0xE0000053, fun w => .fmvXS ⟨rdField w⟩ ⟨rs1Field w⟩⟩,
   ⟨"FCLASS.S", both, 0xFFF0707F, 0xE0001053, fun w => .fclassS ⟨rdField w⟩ ⟨rs1Field w⟩⟩,
   ⟨"FMV.S.X", both, 0xFFF0707F, 0xF0000053, fun w => .fmvSX ⟨rdField w⟩ ⟨rs1Field w⟩⟩,
   ⟨"FRCSR", both, 0xFFFFF07F, 0x00302073, fun w => .frcsr ⟨rdField w⟩⟩,
   ⟨"FRRM", both, 0xFFFFF07F, 0x00202073, fun w => .frrm ⟨rdField w⟩⟩,
   ⟨"FRFLAGS", both, 0xFFFFF07F, 0x00102073, fun w => .frflags ⟨rdField w⟩⟩,
   ⟨"FSCSR", both, 0xFFF0707F, 0x00301073, fun w => .fscsr ⟨rdField w⟩ ⟨rs1Field w⟩⟩,
   ⟨"FSRM", both, 0xFFF0707F, 0x00201073, fun w => .fsrm ⟨rdField w⟩ ⟨rs1Field w⟩⟩,
   ⟨"FSFLAGS", both, 0xFFF0707F, 0x00101073, fun w => .fsflags ⟨rdField w⟩ ⟨rs1Field w⟩⟩,
   ⟨"FSRMI", both, 0xFFF0707F, 0x00205073, fun w => .fsrmi ⟨rdField w⟩ (uimmField w)⟩,
   ⟨"FSFLAGSI", both, 0xFFF0707F, 0x00105073, fun w => .fsflagsi ⟨rdField w⟩ (uimmField w)⟩]

/-- Table RV64F (`44_f_single.md`). -/
def rowsRV64F : List Row :=
  [⟨"FCVT.L.S", only64, 0xFFF0007F, 0xC0200053, fun w => .fcvtLS (rmField w) ⟨rdField w⟩ ⟨rs1Field w⟩⟩,
   ⟨"FCVT.LU.S", only64, 0xFFF0007F, 0xC0300053, fun w => .fcvtLuS (rmField w) ⟨rdField w⟩ ⟨rs1Field w⟩⟩,
   ⟨"FCVT.S.L", only64, 0xFFF0007F, 0xD0200053, fun w => .fcvtSL (rmField w) ⟨rdField w⟩ ⟨rs1Field w⟩⟩,
   ⟨"FCVT.S.LU", only64, 0xFFF0007F, 0xD0300053, fun w => .fcvtSLu (rmField w) ⟨rdField w⟩ ⟨rs1Field w⟩⟩]

/-- Table RV32D (`45_d_double.md`). -/
def rowsRV32D : List Row :=
  [⟨"FLD", both, 0x0000707F, 0x00003007, fun w => .fld ⟨rdField w⟩ ⟨rs1Field w⟩ (immI w)⟩,
   ⟨"FSD", both, 0x0000707F, 0x00003027, fun w => .fsd ⟨rs1Field w⟩ ⟨rs2Field w⟩ (immS w)⟩,
   ⟨"FMADD.D", both, 0x0600007F, 0x02000043, fun w => .fmaddD (rmField w) ⟨rdField w⟩ ⟨rs1Field w⟩ ⟨rs2Field w⟩ ⟨rs3Field w⟩⟩,
   ⟨"FMSUB.D", both, 0x0600007F, 0x02000047, fun w => .fmsubD (rmField w) ⟨rdField w⟩ ⟨rs1Field w⟩ ⟨rs2Field w⟩ ⟨rs3Field w⟩⟩,
   ⟨"FNMSUB.D", both, 0x0600007F, 0x0200004B, fun w => .fnmsubD (rmField w) ⟨rdField w⟩ ⟨rs1Field w⟩ ⟨rs2Field w⟩ ⟨rs3Field w⟩⟩,
   ⟨"FNMADD.D", both, 0x0600007F, 0x0200004F, fun w => .fnmaddD (rmField w) ⟨rdField w⟩ ⟨rs1Field w⟩ ⟨rs2Field w⟩ ⟨rs3Field w⟩⟩,
   ⟨"FADD.D", both, 0xFE00007F, 0x02000053, fun w => .faddD (rmField w) ⟨rdField w⟩ ⟨rs1Field w⟩ ⟨rs2Field w⟩⟩,
   ⟨"FSUB.D", both, 0xFE00007F, 0x0A000053, fun w => .fsubD (rmField w) ⟨rdField w⟩ ⟨rs1Field w⟩ ⟨rs2Field w⟩⟩,
   ⟨"FMUL.D", both, 0xFE00007F, 0x12000053, fun w => .fmulD (rmField w) ⟨rdField w⟩ ⟨rs1Field w⟩ ⟨rs2Field w⟩⟩,
   ⟨"FDIV.D", both, 0xFE00007F, 0x1A000053, fun w => .fdivD (rmField w) ⟨rdField w⟩ ⟨rs1Field w⟩ ⟨rs2Field w⟩⟩,
   ⟨"FSGNJ.D", both, 0xFE00707F, 0x22000053, fun w => .fsgnjD ⟨rdField w⟩ ⟨rs1Field w⟩ ⟨rs2Field w⟩⟩,
   ⟨"FSGNJN.D", both, 0xFE00707F, 0x22001053, fun w => .fsgnjnD ⟨rdField w⟩ ⟨rs1Field w⟩ ⟨rs2Field w⟩⟩,
   ⟨"FSGNJX.D", both, 0xFE00707F, 0x22002053, fun w => .fsgnjxD ⟨rdField w⟩ ⟨rs1Field w⟩ ⟨rs2Field w⟩⟩,
   ⟨"FMIN.D", both, 0xFE00707F, 0x2A000053, fun w => .fminD ⟨rdField w⟩ ⟨rs1Field w⟩ ⟨rs2Field w⟩⟩,
   ⟨"FMAX.D", both, 0xFE00707F, 0x2A001053, fun w => .fmaxD ⟨rdField w⟩ ⟨rs1Field w⟩ ⟨rs2Field w⟩⟩,
   ⟨"FSQRT.D", both, 0xFFF0007F, 0x5A000053, fun w => .fsqrtD (rmField w) ⟨rdField w⟩ ⟨rs1Field w⟩⟩,
   ⟨"FLE.D", both, 0xFE00707F, 0xA2000053, fun w => .fleD ⟨rdField w⟩ ⟨rs1Field w⟩ ⟨rs2Field w⟩⟩,
   ⟨"FLT.D", both, 0xFE00707F, 0xA2001053, fun w => .fltD ⟨rdField w⟩ ⟨rs1Field w⟩ ⟨rs2Field w⟩⟩,
   ⟨"FEQ.D", both, 0xFE00707F, 0xA2002053, fun w => .feqD ⟨rdField w⟩ ⟨rs1Field w⟩ ⟨rs2Field w⟩⟩,
   ⟨"FCVT.W.D", both, 0xFFF0007F, 0xC2000053, fun w => .fcvtWD (rmField w) ⟨rdField w⟩ ⟨rs1Field w⟩⟩,
   ⟨"FCVT.WU.D", both, 0xFFF0007F, 0xC2100053, fun w => .fcvtWuD (rmField w) ⟨rdField w⟩ ⟨rs1Field w⟩⟩,
   ⟨"FCVT.D.W", both, 0xFFF0007F, 0xD2000053, fun w => .fcvtDW (rmField w) ⟨rdField w⟩ ⟨rs1Field w⟩⟩,
   ⟨"FCVT.D.WU", both, 0xFFF0007F, 0xD2100053, fun w => .fcvtDWu (rmField w) ⟨rdField w⟩ ⟨rs1Field w⟩⟩,
   ⟨"FCLASS.D", both, 0xFFF0707F, 0xE2001053, fun w => .fclassD ⟨rdField w⟩ ⟨rs1Field w⟩⟩]

/-- Table RV64D (`45_d_double.md`). -/
def rowsRV64D : List Row :=
  [⟨"FCVT.L.D", only64, 0xFFF0007F, 0xC2200053, fun w => .fcvtLD (rmField w) ⟨rdField w⟩ ⟨rs1Field w⟩⟩,
   ⟨"FCVT.LU.D", only64, 0xFFF0007F, 0xC2300053, fun w => .fcvtLuD (rmField w) ⟨rdField w⟩ ⟨rs1Field w⟩⟩,
   ⟨"FCVT.D.L", only64, 0xFFF0007F, 0xD2200053, fun w => .fcvtDL (rmField w) ⟨rdField w⟩ ⟨rs1Field w⟩⟩,
   ⟨"FCVT.D.LU", only64, 0xFFF0007F, 0xD2300053, fun w => .fcvtDLu (rmField w) ⟨rdField w⟩ ⟨rs1Field w⟩⟩,
   ⟨"FMV.X.D", only64, 0xFFF0707F, 0xE2000053, fun w => .fmvXD ⟨rdField w⟩ ⟨rs1Field w⟩⟩,
   ⟨"FMV.D.X", only64, 0xFFF0707F, 0xF2000053, fun w => .fmvDX ⟨rdField w⟩ ⟨rs1Field w⟩⟩]

/-- The 159 rows of `opcode_table.json`. -/
def opcodeRows : List Row :=
  rowsRV32I ++ rowsRV64I ++ rowsRV32M ++ rowsRV64M ++ rowsRV32A ++
    rowsRV64A ++ rowsRV32F ++ rowsRV64F ++ rowsRV32D ++ rowsRV64D

/-! ### The decoder -/

/-- Why no instruction is read. -/
inductive DecodeError where
  /-- The word matches no row for the configured `XLEN`: a reserved encoding (`30_encoding.md` R131). -/
  | reserved (w : InstWord)
  /-- Fewer than the 4 bytes of an instruction (R110). -/
  | truncated
deriving DecidableEq, Repr

/-- The instruction a word stands for when `XLEN` is `x`: that of the row that accepts it (R126), or the name of the
refusal (R131). -/
def decodeWord (x : XLen) (w : InstWord) : Except DecodeError Instr :=
  match opcodeRows.find? (·.accepts x w) with
  | some r => .ok (r.build w)
  | none => .error (.reserved w)

/-- The word whose byte at the lowest address is `b0` (`20_memory.md` R63). -/
def wordOfBytes (b0 b1 b2 b3 : Byte) : InstWord := b3 ++ b2 ++ b1 ++ b0

/-- The bytes of a word, the one at the lowest address first (R63). -/
def bytesOfWord (w : InstWord) : List Byte := [field w 0 8, field w 8 8, field w 16 8, field w 24 8]

/-- Read one instruction from the bytes at an address, lowest address first: the instruction and the bytes after
it. Total on any bytes. -/
def decodeBytes (x : XLen) : List Byte → Except DecodeError (Instr × List Byte)
  | b0 :: b1 :: b2 :: b3 :: rest =>
    match decodeWord x (wordOfBytes b0 b1 b2 b3) with
    | .ok i => .ok (i, rest)
    | .error e => .error e
  | _ => .error .truncated

/-! ### The encoder: the fields of each format, placed by R111, R112 and R116 to R122 -/

/-- The word of one flag bit. -/
def placeBit (lo : Nat) (b : Bool) : InstWord := place lo (BitVec.ofBool b)

/-- U format. -/
def encU (pat : InstWord) (rd : BitVec 5) (imm : BitVec 20) : InstWord := pat ||| place 7 rd ||| place 12 imm
/-- J format. -/
def encJ (pat : InstWord) (rd : BitVec 5) (off : BitVec 21) : InstWord :=
  pat ||| place 7 rd ||| place 31 (off.extractLsb' 20 1) ||| place 21 (off.extractLsb' 1 10) |||
    place 20 (off.extractLsb' 11 1) ||| place 12 (off.extractLsb' 12 8)
/-- I format. -/
def encI (pat : InstWord) (rd rs1 : BitVec 5) (imm : BitVec 12) : InstWord :=
  pat ||| place 7 rd ||| place 15 rs1 ||| place 20 imm
/-- S format. -/
def encS (pat : InstWord) (rs1 rs2 : BitVec 5) (imm : BitVec 12) : InstWord :=
  pat ||| place 15 rs1 ||| place 20 rs2 ||| place 25 (imm.extractLsb' 5 7) ||| place 7 (imm.extractLsb' 0 5)
/-- B format. -/
def encB (pat : InstWord) (rs1 rs2 : BitVec 5) (off : BitVec 13) : InstWord :=
  pat ||| place 15 rs1 ||| place 20 rs2 ||| place 31 (off.extractLsb' 12 1) ||| place 25 (off.extractLsb' 5 6) |||
    place 8 (off.extractLsb' 1 4) ||| place 7 (off.extractLsb' 11 1)
/-- I-shift5 format. -/
def encSh5 (pat : InstWord) (rd rs1 shamt : BitVec 5) : InstWord :=
  pat ||| place 7 rd ||| place 15 rs1 ||| place 20 shamt
/-- I-shift6 format. -/
def encSh6 (pat : InstWord) (rd rs1 : BitVec 5) (shamt : BitVec 6) : InstWord :=
  pat ||| place 7 rd ||| place 15 rs1 ||| place 20 shamt
/-- A row with an `rd` field only (CSR rows that read). -/
def encRd (pat : InstWord) (rd : BitVec 5) : InstWord := pat ||| place 7 rd
/-- R format with `rs2` fixed, and the CSR and CSRI rows with a field in `inst[19:15]`. -/
def encR1 (pat : InstWord) (rd rs1 : BitVec 5) : InstWord := pat ||| place 7 rd ||| place 15 rs1
/-- R format. -/
def encR (pat : InstWord) (rd rs1 rs2 : BitVec 5) : InstWord :=
  pat ||| place 7 rd ||| place 15 rs1 ||| place 20 rs2
/-- R-rm format with `inst[24:20]` fixed. -/
def encRm1 (pat : InstWord) (rm : BitVec 3) (rd rs1 : BitVec 5) : InstWord :=
  pat ||| place 7 rd ||| place 12 rm ||| place 15 rs1
/-- R-rm format. -/
def encRm2 (pat : InstWord) (rm : BitVec 3) (rd rs1 rs2 : BitVec 5) : InstWord :=
  pat ||| place 7 rd ||| place 12 rm ||| place 15 rs1 ||| place 20 rs2
/-- R4 format. -/
def encR4 (pat : InstWord) (rm : BitVec 3) (rd rs1 rs2 rs3 : BitVec 5) : InstWord :=
  pat ||| place 7 rd ||| place 12 rm ||| place 15 rs1 ||| place 20 rs2 ||| place 27 rs3
/-- AMO format with `rs2` fixed (LR). -/
def encAmo1 (pat : InstWord) (aq rl : Bool) (rd rs1 : BitVec 5) : InstWord :=
  pat ||| place 7 rd ||| place 15 rs1 ||| placeBit 25 rl ||| placeBit 26 aq
/-- AMO format. -/
def encAmo2 (pat : InstWord) (aq rl : Bool) (rd rs1 rs2 : BitVec 5) : InstWord :=
  pat ||| place 7 rd ||| place 15 rs1 ||| place 20 rs2 ||| placeBit 25 rl ||| placeBit 26 aq
/-- FENCE. -/
def encFence (pat : InstWord) (pred succ : BitVec 4) : InstWord := pat ||| place 20 succ ||| place 24 pred

/-- The word of an instruction: the row's `match` with the operands in their fields. Bit 27 of FENCE.I, which the
decoder ignores, is 0 (`30_encoding.md` R135). -/
def encode (i : Instr) : InstWord :=
  match i with
  | .lui rd imm => encU 0x00000037 rd.num imm
  | .auipc rd imm => encU 0x00000017 rd.num imm
  | .jal rd off => encJ 0x0000006F rd.num off
  | .jalr rd rs1 imm => encI 0x00000067 rd.num rs1.num imm
  | .beq rs1 rs2 off => encB 0x00000063 rs1.num rs2.num off
  | .bne rs1 rs2 off => encB 0x00001063 rs1.num rs2.num off
  | .blt rs1 rs2 off => encB 0x00004063 rs1.num rs2.num off
  | .bge rs1 rs2 off => encB 0x00005063 rs1.num rs2.num off
  | .bltu rs1 rs2 off => encB 0x00006063 rs1.num rs2.num off
  | .bgeu rs1 rs2 off => encB 0x00007063 rs1.num rs2.num off
  | .lb rd rs1 imm => encI 0x00000003 rd.num rs1.num imm
  | .lh rd rs1 imm => encI 0x00001003 rd.num rs1.num imm
  | .lw rd rs1 imm => encI 0x00002003 rd.num rs1.num imm
  | .lbu rd rs1 imm => encI 0x00004003 rd.num rs1.num imm
  | .lhu rd rs1 imm => encI 0x00005003 rd.num rs1.num imm
  | .sb rs1 rs2 imm => encS 0x00000023 rs1.num rs2.num imm
  | .sh rs1 rs2 imm => encS 0x00001023 rs1.num rs2.num imm
  | .sw rs1 rs2 imm => encS 0x00002023 rs1.num rs2.num imm
  | .addi rd rs1 imm => encI 0x00000013 rd.num rs1.num imm
  | .slti rd rs1 imm => encI 0x00002013 rd.num rs1.num imm
  | .sltiu rd rs1 imm => encI 0x00003013 rd.num rs1.num imm
  | .xori rd rs1 imm => encI 0x00004013 rd.num rs1.num imm
  | .ori rd rs1 imm => encI 0x00006013 rd.num rs1.num imm
  | .andi rd rs1 imm => encI 0x00007013 rd.num rs1.num imm
  | .slli32 rd rs1 shamt => encSh5 0x00001013 rd.num rs1.num shamt
  | .srli32 rd rs1 shamt => encSh5 0x00005013 rd.num rs1.num shamt
  | .srai32 rd rs1 shamt => encSh5 0x40005013 rd.num rs1.num shamt
  | .add rd rs1 rs2 => encR 0x00000033 rd.num rs1.num rs2.num
  | .sub rd rs1 rs2 => encR 0x40000033 rd.num rs1.num rs2.num
  | .sll rd rs1 rs2 => encR 0x00001033 rd.num rs1.num rs2.num
  | .slt rd rs1 rs2 => encR 0x00002033 rd.num rs1.num rs2.num
  | .sltu rd rs1 rs2 => encR 0x00003033 rd.num rs1.num rs2.num
  | .xor rd rs1 rs2 => encR 0x00004033 rd.num rs1.num rs2.num
  | .srl rd rs1 rs2 => encR 0x00005033 rd.num rs1.num rs2.num
  | .sra rd rs1 rs2 => encR 0x40005033 rd.num rs1.num rs2.num
  | .or rd rs1 rs2 => encR 0x00006033 rd.num rs1.num rs2.num
  | .and rd rs1 rs2 => encR 0x00007033 rd.num rs1.num rs2.num
  | .fence pred succ => encFence 0x0000000F pred succ
  | .fenceI => 0x0000100F
  | .ecall => 0x00000073
  | .ebreak => 0x00100073
  | .lwu rd rs1 imm => encI 0x00006003 rd.num rs1.num imm
  | .ld rd rs1 imm => encI 0x00003003 rd.num rs1.num imm
  | .sd rs1 rs2 imm => encS 0x00003023 rs1.num rs2.num imm
  | .slli64 rd rs1 shamt => encSh6 0x00001013 rd.num rs1.num shamt
  | .srli64 rd rs1 shamt => encSh6 0x00005013 rd.num rs1.num shamt
  | .srai64 rd rs1 shamt => encSh6 0x40005013 rd.num rs1.num shamt
  | .addiw rd rs1 imm => encI 0x0000001B rd.num rs1.num imm
  | .slliw rd rs1 shamt => encSh5 0x0000101B rd.num rs1.num shamt
  | .srliw rd rs1 shamt => encSh5 0x0000501B rd.num rs1.num shamt
  | .sraiw rd rs1 shamt => encSh5 0x4000501B rd.num rs1.num shamt
  | .addw rd rs1 rs2 => encR 0x0000003B rd.num rs1.num rs2.num
  | .subw rd rs1 rs2 => encR 0x4000003B rd.num rs1.num rs2.num
  | .sllw rd rs1 rs2 => encR 0x0000103B rd.num rs1.num rs2.num
  | .srlw rd rs1 rs2 => encR 0x0000503B rd.num rs1.num rs2.num
  | .sraw rd rs1 rs2 => encR 0x4000503B rd.num rs1.num rs2.num
  | .mul rd rs1 rs2 => encR 0x02000033 rd.num rs1.num rs2.num
  | .mulh rd rs1 rs2 => encR 0x02001033 rd.num rs1.num rs2.num
  | .mulhsu rd rs1 rs2 => encR 0x02002033 rd.num rs1.num rs2.num
  | .mulhu rd rs1 rs2 => encR 0x02003033 rd.num rs1.num rs2.num
  | .div rd rs1 rs2 => encR 0x02004033 rd.num rs1.num rs2.num
  | .divu rd rs1 rs2 => encR 0x02005033 rd.num rs1.num rs2.num
  | .rem rd rs1 rs2 => encR 0x02006033 rd.num rs1.num rs2.num
  | .remu rd rs1 rs2 => encR 0x02007033 rd.num rs1.num rs2.num
  | .mulw rd rs1 rs2 => encR 0x0200003B rd.num rs1.num rs2.num
  | .divw rd rs1 rs2 => encR 0x0200403B rd.num rs1.num rs2.num
  | .divuw rd rs1 rs2 => encR 0x0200503B rd.num rs1.num rs2.num
  | .remw rd rs1 rs2 => encR 0x0200603B rd.num rs1.num rs2.num
  | .remuw rd rs1 rs2 => encR 0x0200703B rd.num rs1.num rs2.num
  | .lrW aq rl rd rs1 => encAmo1 0x1000202F aq rl rd.num rs1.num
  | .scW aq rl rd rs1 rs2 => encAmo2 0x1800202F aq rl rd.num rs1.num rs2.num
  | .amoswapW aq rl rd rs1 rs2 => encAmo2 0x0800202F aq rl rd.num rs1.num rs2.num
  | .amoaddW aq rl rd rs1 rs2 => encAmo2 0x0000202F aq rl rd.num rs1.num rs2.num
  | .amoxorW aq rl rd rs1 rs2 => encAmo2 0x2000202F aq rl rd.num rs1.num rs2.num
  | .amoorW aq rl rd rs1 rs2 => encAmo2 0x4000202F aq rl rd.num rs1.num rs2.num
  | .amoandW aq rl rd rs1 rs2 => encAmo2 0x6000202F aq rl rd.num rs1.num rs2.num
  | .amominW aq rl rd rs1 rs2 => encAmo2 0x8000202F aq rl rd.num rs1.num rs2.num
  | .amomaxW aq rl rd rs1 rs2 => encAmo2 0xA000202F aq rl rd.num rs1.num rs2.num
  | .amominuW aq rl rd rs1 rs2 => encAmo2 0xC000202F aq rl rd.num rs1.num rs2.num
  | .amomaxuW aq rl rd rs1 rs2 => encAmo2 0xE000202F aq rl rd.num rs1.num rs2.num
  | .lrD aq rl rd rs1 => encAmo1 0x1000302F aq rl rd.num rs1.num
  | .scD aq rl rd rs1 rs2 => encAmo2 0x1800302F aq rl rd.num rs1.num rs2.num
  | .amoswapD aq rl rd rs1 rs2 => encAmo2 0x0800302F aq rl rd.num rs1.num rs2.num
  | .amoaddD aq rl rd rs1 rs2 => encAmo2 0x0000302F aq rl rd.num rs1.num rs2.num
  | .amoxorD aq rl rd rs1 rs2 => encAmo2 0x2000302F aq rl rd.num rs1.num rs2.num
  | .amoorD aq rl rd rs1 rs2 => encAmo2 0x4000302F aq rl rd.num rs1.num rs2.num
  | .amoandD aq rl rd rs1 rs2 => encAmo2 0x6000302F aq rl rd.num rs1.num rs2.num
  | .amominD aq rl rd rs1 rs2 => encAmo2 0x8000302F aq rl rd.num rs1.num rs2.num
  | .amomaxD aq rl rd rs1 rs2 => encAmo2 0xA000302F aq rl rd.num rs1.num rs2.num
  | .amominuD aq rl rd rs1 rs2 => encAmo2 0xC000302F aq rl rd.num rs1.num rs2.num
  | .amomaxuD aq rl rd rs1 rs2 => encAmo2 0xE000302F aq rl rd.num rs1.num rs2.num
  | .flw rd rs1 imm => encI 0x00002007 rd.num rs1.num imm
  | .fsw rs1 rs2 imm => encS 0x00002027 rs1.num rs2.num imm
  | .fmaddS rm rd rs1 rs2 rs3 => encR4 0x00000043 rm rd.num rs1.num rs2.num rs3.num
  | .fmsubS rm rd rs1 rs2 rs3 => encR4 0x00000047 rm rd.num rs1.num rs2.num rs3.num
  | .fnmsubS rm rd rs1 rs2 rs3 => encR4 0x0000004B rm rd.num rs1.num rs2.num rs3.num
  | .fnmaddS rm rd rs1 rs2 rs3 => encR4 0x0000004F rm rd.num rs1.num rs2.num rs3.num
  | .faddS rm rd rs1 rs2 => encRm2 0x00000053 rm rd.num rs1.num rs2.num
  | .fsubS rm rd rs1 rs2 => encRm2 0x08000053 rm rd.num rs1.num rs2.num
  | .fmulS rm rd rs1 rs2 => encRm2 0x10000053 rm rd.num rs1.num rs2.num
  | .fdivS rm rd rs1 rs2 => encRm2 0x18000053 rm rd.num rs1.num rs2.num
  | .fsgnjS rd rs1 rs2 => encR 0x20000053 rd.num rs1.num rs2.num
  | .fsgnjnS rd rs1 rs2 => encR 0x20001053 rd.num rs1.num rs2.num
  | .fsgnjxS rd rs1 rs2 => encR 0x20002053 rd.num rs1.num rs2.num
  | .fminS rd rs1 rs2 => encR 0x28000053 rd.num rs1.num rs2.num
  | .fmaxS rd rs1 rs2 => encR 0x28001053 rd.num rs1.num rs2.num
  | .fsqrtS rm rd rs1 => encRm1 0x58000053 rm rd.num rs1.num
  | .fleS rd rs1 rs2 => encR 0xA0000053 rd.num rs1.num rs2.num
  | .fltS rd rs1 rs2 => encR 0xA0001053 rd.num rs1.num rs2.num
  | .feqS rd rs1 rs2 => encR 0xA0002053 rd.num rs1.num rs2.num
  | .fcvtWS rm rd rs1 => encRm1 0xC0000053 rm rd.num rs1.num
  | .fcvtWuS rm rd rs1 => encRm1 0xC0100053 rm rd.num rs1.num
  | .fcvtSW rm rd rs1 => encRm1 0xD0000053 rm rd.num rs1.num
  | .fcvtSWu rm rd rs1 => encRm1 0xD0100053 rm rd.num rs1.num
  | .fmvXS rd rs1 => encR1 0xE0000053 rd.num rs1.num
  | .fclassS rd rs1 => encR1 0xE0001053 rd.num rs1.num
  | .fmvSX rd rs1 => encR1 0xF0000053 rd.num rs1.num
  | .frcsr rd => encRd 0x00302073 rd.num
  | .frrm rd => encRd 0x00202073 rd.num
  | .frflags rd => encRd 0x00102073 rd.num
  | .fscsr rd rs1 => encR1 0x00301073 rd.num rs1.num
  | .fsrm rd rs1 => encR1 0x00201073 rd.num rs1.num
  | .fsflags rd rs1 => encR1 0x00101073 rd.num rs1.num
  | .fsrmi rd uimm => encR1 0x00205073 rd.num uimm
  | .fsflagsi rd uimm => encR1 0x00105073 rd.num uimm
  | .fcvtLS rm rd rs1 => encRm1 0xC0200053 rm rd.num rs1.num
  | .fcvtLuS rm rd rs1 => encRm1 0xC0300053 rm rd.num rs1.num
  | .fcvtSL rm rd rs1 => encRm1 0xD0200053 rm rd.num rs1.num
  | .fcvtSLu rm rd rs1 => encRm1 0xD0300053 rm rd.num rs1.num
  | .fld rd rs1 imm => encI 0x00003007 rd.num rs1.num imm
  | .fsd rs1 rs2 imm => encS 0x00003027 rs1.num rs2.num imm
  | .fmaddD rm rd rs1 rs2 rs3 => encR4 0x02000043 rm rd.num rs1.num rs2.num rs3.num
  | .fmsubD rm rd rs1 rs2 rs3 => encR4 0x02000047 rm rd.num rs1.num rs2.num rs3.num
  | .fnmsubD rm rd rs1 rs2 rs3 => encR4 0x0200004B rm rd.num rs1.num rs2.num rs3.num
  | .fnmaddD rm rd rs1 rs2 rs3 => encR4 0x0200004F rm rd.num rs1.num rs2.num rs3.num
  | .faddD rm rd rs1 rs2 => encRm2 0x02000053 rm rd.num rs1.num rs2.num
  | .fsubD rm rd rs1 rs2 => encRm2 0x0A000053 rm rd.num rs1.num rs2.num
  | .fmulD rm rd rs1 rs2 => encRm2 0x12000053 rm rd.num rs1.num rs2.num
  | .fdivD rm rd rs1 rs2 => encRm2 0x1A000053 rm rd.num rs1.num rs2.num
  | .fsgnjD rd rs1 rs2 => encR 0x22000053 rd.num rs1.num rs2.num
  | .fsgnjnD rd rs1 rs2 => encR 0x22001053 rd.num rs1.num rs2.num
  | .fsgnjxD rd rs1 rs2 => encR 0x22002053 rd.num rs1.num rs2.num
  | .fminD rd rs1 rs2 => encR 0x2A000053 rd.num rs1.num rs2.num
  | .fmaxD rd rs1 rs2 => encR 0x2A001053 rd.num rs1.num rs2.num
  | .fsqrtD rm rd rs1 => encRm1 0x5A000053 rm rd.num rs1.num
  | .fleD rd rs1 rs2 => encR 0xA2000053 rd.num rs1.num rs2.num
  | .fltD rd rs1 rs2 => encR 0xA2001053 rd.num rs1.num rs2.num
  | .feqD rd rs1 rs2 => encR 0xA2002053 rd.num rs1.num rs2.num
  | .fcvtWD rm rd rs1 => encRm1 0xC2000053 rm rd.num rs1.num
  | .fcvtWuD rm rd rs1 => encRm1 0xC2100053 rm rd.num rs1.num
  | .fcvtDW rm rd rs1 => encRm1 0xD2000053 rm rd.num rs1.num
  | .fcvtDWu rm rd rs1 => encRm1 0xD2100053 rm rd.num rs1.num
  | .fclassD rd rs1 => encR1 0xE2001053 rd.num rs1.num
  | .fcvtLD rm rd rs1 => encRm1 0xC2200053 rm rd.num rs1.num
  | .fcvtLuD rm rd rs1 => encRm1 0xC2300053 rm rd.num rs1.num
  | .fcvtDL rm rd rs1 => encRm1 0xD2200053 rm rd.num rs1.num
  | .fcvtDLu rm rd rs1 => encRm1 0xD2300053 rm rd.num rs1.num
  | .fmvXD rd rs1 => encR1 0xE2000053 rd.num rs1.num
  | .fmvDX rd rs1 => encR1 0xF2000053 rd.num rs1.num

/-! ### What the host asks of the decoder -/

/-- The bytes of an instruction whose bits are `w`, numbered as `opcode_table.json` numbers them: little-endian, the
bits above `nbits` zero. -/
def tableBytes (nbits w : Nat) : List Byte := bytesOfWord (BitVec.ofNat 32 (w % 2 ^ nbits))

/-- The instruction the decoder reads from an instruction whose bits are `w`, at the `XLEN` of `State.reset`; `none`
where it refuses. -/
def decodeTableWord (nbits w : Nat) : Option Instr :=
  match decodeBytes Config.defaultParams.xlen (tableBytes nbits w) with
  | .ok (i, _) => some i
  | .error _ => none

end Sys2Proof
end

