-- ==== Sys2Proof/Machine/Memory.lean ====
section
/-! DEFINITION. Memory as a list of cells in one canonical form, its reads and writes by bytes and by little-endian
values (`20_memory.md` R62), and sets of addresses. -/

namespace Sys2Proof.Machine

/-- What an address that is not listed reads as. DESIGN CHOICE, unsafe: the spec leaves bytes outside the image
unspecified (U1; log 4). -/
def Memory.unlisted : Byte := 0

/-- The byte at an address. -/
def Memory.read : Memory → Nat → Byte
  | [], _ => Memory.unlisted
  | (b, v) :: m, a => if b = a then v else Memory.read m a

/-- Remove whatever is listed for an address. -/
def Memory.erase : Memory → Nat → Memory
  | [], _ => []
  | (b, v) :: m, a => if b = a then Memory.erase m a else (b, v) :: Memory.erase m a

/-- List a byte in front of the first cell with a higher address. -/
def Memory.place : Memory → Nat → Byte → Memory
  | [], a, v => [(a, v)]
  | (b, u) :: m, a, v => if a < b then (a, v) :: (b, u) :: m else (b, u) :: Memory.place m a v

/-- Write one byte; writing what an unlisted address reads as removes the cell. -/
def Memory.write (m : Memory) (a : Nat) (v : Byte) : Memory :=
  if v = Memory.unlisted then m.erase a else (m.erase a).place a v

/-- The canonical form: addresses strictly rising, no cell equal to what an unlisted address reads as. -/
def Memory.wf : Memory → Bool
  | [] => true
  | (a, v) :: m => v != Memory.unlisted && m.all (fun c => a < c.1) && Memory.wf m

/-- Every listed address is below a bound. -/
def Memory.below (m : Memory) (bound : Nat) : Bool := m.all (·.1 < bound)

/-- The value of bytes, the first in bits 7:0 (`20_memory.md` R62). -/
def leNat : List Byte → Nat
  | [] => 0
  | b :: bs => b.toNat + 256 * leNat bs

/-- The `n` low bytes of a value, bits 7:0 first (R62). -/
def leBytes : Nat → Nat → List Byte
  | 0, _ => []
  | n + 1, v => BitVec.ofNat 8 v :: leBytes n (v / 256)

/-- The addresses of an access of `n` bytes at `addr`: `addr` to `addr + n - 1`, each modulo `2^XLEN`
(`20_memory.md` R60). -/
def accessBytes {w : Nat} (addr : BitVec w) (n : Nat) : List Nat :=
  (List.range n).map fun k => (addr + BitVec.ofNat w k).toNat

/-- The bytes at some addresses. -/
def Memory.readBytes (m : Memory) (as : List Nat) : List Byte := as.map m.read

/-- Write bytes to addresses, pair by pair. -/
def Memory.writeBytes (m : Memory) : List Nat → List Byte → Memory
  | a :: as, b :: bs => (m.write a b).writeBytes as bs
  | _, _ => m

/-- `MemRead(addr, n)` after its checks: the `8n`-bit value, little-endian (`00_scope.md` R9). -/
def Memory.readLE {w : Nat} (m : Memory) (addr : BitVec w) (n : Nat) : BitVec (8 * n) :=
  BitVec.ofNat (8 * n) (leNat (m.readBytes (accessBytes addr n)))

/-- `MemWrite(addr, n, v)` after its checks, little-endian (R9). -/
def Memory.writeLE {w : Nat} (m : Memory) (addr : BitVec w) (n : Nat) (v : BitVec (8 * n)) : Memory :=
  m.writeBytes (accessBytes addr n) (leBytes n v.toNat)

/-- Add an address to a strictly rising list of addresses. -/
def addrInsert (a : Nat) : List Nat → List Nat
  | [] => [a]
  | b :: bs => if a < b then a :: b :: bs else if a = b then b :: bs else b :: addrInsert a bs

/-- Add several addresses. -/
def addrInsertAll (as : List Nat) (set : List Nat) : List Nat := as.foldl (fun s a => addrInsert a s) set

/-- A list of addresses is strictly rising. -/
def addrSorted : List Nat → Bool
  | [] => true
  | a :: as => as.all (a < ·) && addrSorted as

end Sys2Proof.Machine
end

