-- ==== Sys2Proof/Machine/Ops.lean ====
section
/-! DEFINITION. The named operations on the state: registers, `pc`, memory accesses with their checks, the
reservation, and taking a trap with the delivery to the execution environment beside it. -/

namespace Sys2Proof.Machine

/-- What one instruction or one step answers. -/
abbrev Result := Host.Outcome State Fault Refusal

/-- `XLEN` of the machine (`00_scope.md` R5). -/
def State.bits (s : State) : Nat := s.params.xlen.bits

/-! ### Registers and `pc` (`00_scope.md` R8) -/

/-- `x[r]` as a `w`-bit vector; `x0` reads as zero (`10_state.md` R21). -/
def readX (w : Nat) (s : State) (r : XReg) : BitVec w :=
  if r.num = 0 then 0 else (s.xs[r.num.toNat]'r.num.isLt).setWidth w

/-- The integer registers after `x[r] <- v`; the write is discarded when `r` is `x0` (R21). -/
def setX {w : Nat} (r : XReg) (v : BitVec w) (xs : Vector Word 32) : Vector Word 32 :=
  if r.num = 0 then xs else xs.set r.num.toNat (v.setWidth 64) r.num.isLt

/-- `x[r] <- v`. -/
def writeX {w : Nat} (r : XReg) (v : BitVec w) (s : State) : State := { s with xs := setX r v s.xs }

/-- `f[r]`, 64 raw bits (`10_state.md` R28). -/
def readF (s : State) (r : FReg) : Word := s.fs[r.num.toNat]'r.num.isLt

/-- `f[r] <- v`. -/
def writeF (r : FReg) (v : Word) (s : State) : State :=
  { s with fs := s.fs.set r.num.toNat v r.num.isLt }

/-- `pc` as a `w`-bit vector. -/
def readPc (w : Nat) (s : State) : BitVec w := s.pc.setWidth w

/-- `pc <- target`. -/
def setPc {w : Nat} (target : BitVec w) (s : State) : State := { s with pc := target.setWidth 64 }

/-- `pc + 4` modulo `2^XLEN` (`10_state.md` R24). -/
def nextPc (s : State) : BitVec s.bits := readPc s.bits s + 4

/-- The instruction has completed without a transfer: `pc <- pc + 4` (R24). -/
def advance (s : State) : State := setPc (nextPc s) s

/-- Complete: only `pc` moves from here. -/
def retire (s : State) : Result := .next (advance s)

/-- Complete with a result for `x[rd]`. -/
def retireX {w : Nat} (rd : XReg) (v : BitVec w) (s : State) : Result := .next (advance (writeX rd v s))

/-- Complete with a result for `f[rd]`. -/
def retireF (rd : FReg) (v : Word) (s : State) : Result := .next (advance (writeF rd v s))

/-! ### Taking a trap, and what follows it -/

/-- Take a trap (`60_exceptions.md` R424): nothing is written, `pc` keeps the address of the raising instruction, no
register saves anything; the hart stops and the pair (name, info) stands in the state for the execution environment
(R445, R446; log 6). -/
def takeTrap (t : Trap) (s : State) : State := { s with run := .stopped t }

/-- `raise cause(info)` (`00_scope.md` R10). -/
def raise (s : State) (cause : Cause) (info : Word) : Result := .next (takeTrap ⟨cause, info⟩ s)

/-- What the execution environment does with a trap (`eei_trap`, R424): from the pair and the unchanged state, a
state from which the hart runs on, or `none`: the hart stays stopped. -/
abbrev Eei := Trap → State → Option State

/-- The default `eei_trap`: the hart stops and never steps again (R424). -/
def eeiStops : Eei := fun _ _ => none

/-- The delivery of a trap, and the return from it: there is no return instruction, resumption is the environment's
act, which may change any state (`60_exceptions.md` R424, R429). The environment sees the state as it was before the
trapping step. No LR/SC loop goes on through it (log 7). A running hart is left alone. -/
def deliverTrap (eei : Eei) (s : State) : State :=
  match s.run with
  | .running => s
  | .stopped t =>
    match eei t { s with run := .running } with
    | some s' => { s' with run := .running, retryLoop := none }
    | none => s

/-- The exception codes of R421, informative (D18). -/
def causeCode : Cause → Nat
  | .instructionAddressMisaligned => 0
  | .instructionAccessFault => 1
  | .illegalInstruction => 2
  | .breakpoint => 3
  | .loadAddressMisaligned => 4
  | .loadAccessFault => 5
  | .storeAMOAddressMisaligned => 6
  | .storeAMOAccessFault => 7
  | .environmentCall => 11

/-- `IllegalInstruction(inst)` raised by a decoded instruction: the info is its word, zero-extended (R421; log 12). -/
def illegal (i : Instr) (s : State) : Result := raise s .illegalInstruction ((encode i).setWidth 64)

/-- An instruction whose row exists only when `XLEN = 64`; with `XLEN = 32` its word is reserved
(`41_rv64i.md` R220, `30_encoding.md` R126, R131; log 2). -/
def when64 (i : Instr) (s : State) (k : Result) : Result :=
  match s.params.xlen with
  | .rv64 => k
  | .rv32 => illegal i s

/-! ### Control transfer -/

/-- Transfer to `target`, the instruction's other effects being those of `s'`; a target whose bits 1:0 are not zero
raises and changes nothing (`40_rv32i.md` R161). -/
def transfer {w : Nat} (s s' : State) (target : BitVec w) : Result :=
  if target.extractLsb' 0 2 = 0 then .next (setPc target s')
  else raise s .instructionAddressMisaligned (target.setWidth 64)

/-! ### Memory accesses (`20_memory.md` R64 to R66, `40_rv32i.md` R162) -/

/-- The trap of an access of `n` bytes, if it has one: the alignment is checked first, then `mem_valid` for every
kind the access needs (R66, D24). The info is the effective address (R421). -/
def accessTrap {w : Nat} (s : State) (misaligned refused : Cause) (kinds : List AccessKind) (addr : BitVec w)
    (n : Nat) : Option Trap :=
  if addr.toNat % n ≠ 0 then some ⟨misaligned, addr.setWidth 64⟩
  else if kinds.all (fun kind => s.params.memValid kind addr.toNat n) then none
  else some ⟨refused, addr.setWidth 64⟩

/-- The trap of a load or an LR. -/
def loadTrap {w : Nat} (s : State) (kinds : List AccessKind) (addr : BitVec w) (n : Nat) : Option Trap :=
  accessTrap s .loadAddressMisaligned .loadAccessFault kinds addr n

/-- The trap of a store, an SC or an AMO. -/
def storeTrap {w : Nat} (s : State) (kinds : List AccessKind) (addr : BitVec w) (n : Nat) : Option Trap :=
  accessTrap s .storeAMOAddressMisaligned .storeAMOAccessFault kinds addr n

/-- Take the trap if there is one, else go on. -/
def orElse (t : Option Trap) (s : State) (k : Result) : Result :=
  match t with
  | some t => .next (takeTrap t s)
  | none => k

/-- `MemRead(addr, n)` of a load: its checks, then `k` of the value (R162). -/
def load {w : Nat} (s : State) (addr : BitVec w) (n : Nat) (k : BitVec (8 * n) → Result) : Result :=
  orElse (loadTrap s [.load] addr n) s (k (s.mem.readLE addr n))

/-- The state after `n` bytes were written at `addr`; until the next FENCE.I a fetch may see them or not
(`20_memory.md` R92). -/
def storeBytes {w : Nat} (addr : BitVec w) (n : Nat) (v : BitVec (8 * n)) (s : State) : State :=
  { s with mem := s.mem.writeLE addr n v, stale := addrInsertAll (accessBytes addr n) s.stale }

/-- Every later fetch sees every earlier store of the hart: no byte is stale (R92). -/
def syncFetch (s : State) : State := { s with stale := [] }

/-- `MemWrite(addr, n, v)` of a store: its checks, then the write (R162). The reservation stays
(`43_a_atomics.md` R261 (d)). -/
def store {w : Nat} (s : State) (addr : BitVec w) (n : Nat) (v : BitVec (8 * n)) : Result :=
  orElse (storeTrap s [.store] addr n) s (retire (storeBytes addr n v s))

/-! ### Atomic accesses (`43_a_atomics.md` R260 to R262) -/

/-- The kinds of access an LR needs valid (log 9). -/
def lrKinds : List AccessKind := [.lr, .load]
/-- The kinds of access an SC needs valid (log 9). -/
def scKinds : List AccessKind := [.sc]
/-- The kinds of access an AMO needs valid (R260; log 9). -/
def amoKinds : List AccessKind := [.amo, .load, .store]

/-- The reservation set of an LR at `addr`: the naturally aligned `RES_GRAIN` bytes that contain it (R261). -/
def reservationSet (p : Params) (addr : Nat) : Reservation :=
  ⟨addr / p.resGrain * p.resGrain, p.resGrain⟩

/-- `[addr, addr + n)` lies in the reservation set (R262 (b)). -/
def Reservation.covers (r : Reservation) (addr n : Nat) : Bool :=
  r.base ≤ addr && addr + n ≤ r.base + r.size

/-- The LR's reservation replaces any earlier one (R261 (a)). -/
def reserve (r : Reservation) (s : State) : State := { s with reservation := some r }

/-- The hart's reservation lets an SC at `addr` succeed (R262 (a), (b), (c)). -/
def reserved (s : State) (addr n : Nat) : Bool :=
  match s.reservation with
  | some r => r.covers addr n
  | none => false

/-- The number of the consultation of the oracle that opened the row the next one belongs to: the first try of the
LR/SC loop the hart is in, else the next one itself (R263; log 7). -/
def firstDraw (s : State) : Nat :=
  match s.retryLoop with
  | some l => l.first
  | none => s.scDraws

/-- The oracle lets the SC succeed: its row has had the failures that the free value gives it (R262 (d), R263, U5;
log 7). -/
def oracleAllows (s : State) : Bool := firstDraw s + Config.scFailures (firstDraw s) ≤ s.scDraws

/-- The SC of a reservation that holds may fail all the same (R262 (d)): the oracle decides, if the parameter lets
it. -/
def scSucceeds (s : State) (addr n : Nat) : Bool :=
  reserved s addr n && (!s.params.scMayFailSpuriously || oracleAllows s)

/-- After an SC: no reservation, whatever its outcome (R261 (b)); the oracle has moved on if it was consulted. -/
def endReservation (addr n : Nat) (s : State) : State :=
  { s with
    reservation := none
    scDraws := if reserved s addr n && s.params.scMayFailSpuriously then s.scDraws + 1 else s.scDraws }

/-- LR of `n` bytes: checks, read, reservation, `x[rd] <- sext_XLEN` of the value (R264, R275). -/
def loadReserve (n : Nat) (rd rs1 : XReg) (s : State) : Result :=
  let addr := readX s.bits s rs1
  orElse (loadTrap s lrKinds addr n) s
    (retireX rd ((s.mem.readLE addr n).signExtend s.bits) (reserve (reservationSet s.params addr.toNat) s))

/-- SC of `n` bytes: checks, then on success the write and 0 in `x[rd]`, on failure 1 in `x[rd]` and no write; the
reservation ends (R262, R265, R276). The sources are read before `rd` is written. -/
def storeConditional (n : Nat) (rd rs1 rs2 : XReg) (s : State) : Result :=
  let addr := readX s.bits s rs1
  let v := readX (8 * n) s rs2
  orElse (storeTrap s scKinds addr n) s
    (if scSucceeds s addr.toNat n then retireX rd (0 : BitVec s.bits) (storeBytes addr n v (endReservation addr.toNat n s))
     else retireX rd (1 : BitVec s.bits) (endReservation addr.toNat n s))

/-- AMO of `n` bytes: checks, `t` read, `op(t, x[rs2])` written, `x[rd] <- sext_XLEN(t)` (R266 to R285). The sources
are read before `rd` is written; `rd` gets the old value. -/
def amo (n : Nat) (op : BitVec (8 * n) → BitVec (8 * n) → BitVec (8 * n)) (rd rs1 rs2 : XReg) (s : State) : Result :=
  let addr := readX s.bits s rs1
  let t := s.mem.readLE addr n
  orElse (storeTrap s amoKinds addr n) s
    (retireX rd (t.signExtend s.bits) (storeBytes addr n (op t (readX (8 * n) s rs2)) s))

end Sys2Proof.Machine
end

