-- ==== Sys2Proof/Machine/Operands.lean ====
section
/-! DEFINITION. The operand forms: extended immediates, effective addresses, shift amounts, boxed and raw
floating-point operands, the rounding mode, and the ways a floating-point result is written. -/

namespace Sys2Proof.Machine

/-! ### Integer operands -/

/-- The immediate of the I and S formats, `sext_XLEN` of 12 bits (`30_encoding.md` R116, R117). -/
def immX (s : State) (imm : BitVec 12) : BitVec s.bits := imm.signExtend s.bits

/-- The immediate of the U format: the 20 bits become bits 31:12, sign-extended to `XLEN` (R119). -/
def upperImm (s : State) (imm : BitVec 20) : BitVec s.bits := (imm ++ 0#12 : BitVec 32).signExtend s.bits

/-- The effective address `x[rs1] + sext_XLEN(imm)` (`20_memory.md` R60). -/
def effAddr (s : State) (rs1 : XReg) (imm : BitVec 12) : BitVec s.bits := readX s.bits s rs1 + immX s imm

/-- `pc` plus a sign-extended offset: the target of a jump or a branch (R118, R120). -/
def pcPlus {n : Nat} (s : State) (off : BitVec n) : BitVec s.bits := readPc s.bits s + off.signExtend s.bits

/-- The amount of a shift by register: `x[rs2][4:0]` when `XLEN = 32`, `x[rs2][5:0]` when `XLEN = 64`
(`40_rv32i.md` R192). -/
def shiftAmount (s : State) (rs2 : XReg) : Nat :=
  match s.params.xlen with
  | .rv32 => (readX 5 s rs2).toNat
  | .rv64 => (readX 6 s rs2).toNat

/-- `bool_to_bits` (`00_scope.md` R7). -/
def boolBits (w : Nat) (c : Bool) : BitVec w := (BitVec.ofBool c).setWidth w

/-! ### Floating-point operands and results -/

/-- `box(v)` (`44_f_single.md` R303). -/
def box (v : BitVec 32) : Word := BitVec.allOnes 32 ++ v

/-- The canonical NaN of binary32 (R305). -/
def canonicalNaN32 : BitVec 32 := 0x7FC00000

/-- The single value of 64 register bits: the low half if the upper half is all ones, else the canonical NaN
(R302). -/
def unbox (v : Word) : BitVec 32 :=
  if v.extractLsb' 32 32 = BitVec.allOnes 32 then v.extractLsb' 0 32 else canonicalNaN32

/-- `S(i)`: a single-precision operand (R302). -/
def readS (s : State) (r : FReg) : BitVec 32 := unbox (readF s r)

/-- `f[r][31:0]`, raw: what FSW and FMV.X.S read (R302). -/
def readFLow (s : State) (r : FReg) : BitVec 32 := (readF s r).extractLsb' 0 32

/-- Run `k` under the effective rounding mode of instruction `i`, whose `rm` field is `rm`; a reserved mode raises
`IllegalInstruction` and changes nothing (`44_f_single.md` R301). -/
def withMode (i : Instr) (rm : BitVec 3) (s : State) (k : RoundingMode → Result) : Result :=
  match resolveRm rm s.frm with
  | some mode => k mode
  | none => illegal i s

/-- Complete with a single-precision result and its flags (R303, R304). -/
def retireS (rd : FReg) (r : BitVec 32 × Flags) (s : State) : Result := retireF rd (box r.1) (accrue r.2 s)

/-- Complete with a double-precision result and its flags (`45_d_double.md` R370). -/
def retireD (rd : FReg) (r : BitVec 64 × Flags) (s : State) : Result := retireF rd r.1 (accrue r.2 s)

/-- Complete with an integer result for `x[rd]`, extended by sign to `XLEN`, and its flags (R306). -/
def retireInt {k : Nat} (rd : XReg) (r : BitVec k × Flags) (s : State) : Result :=
  retireX rd (r.1.signExtend s.bits) (accrue r.2 s)

/-- Complete with a truth value in `x[rd]` and its flags (R326 to R328). -/
def retireBool (rd : XReg) (r : Bool × Flags) (s : State) : Result :=
  retireX rd (boolBits s.bits r.1) (accrue r.2 s)

end Sys2Proof.Machine
end

