-- ==== Sys2Proof/Machine/Atomic.lean ====
section
/-! DEFINITION. The A extension (`43_a_atomics.md`). -/

namespace Sys2Proof.Machine

/-- The signed minimum: `if t <s v then t else v` (R271). -/
def minS {w : Nat} (t v : BitVec w) : BitVec w := if t.slt v then t else v
/-- The signed maximum: `if t <s v then v else t` (R272). -/
def maxS {w : Nat} (t v : BitVec w) : BitVec w := if t.slt v then v else t
/-- The unsigned minimum (R273). -/
def minU {w : Nat} (t v : BitVec w) : BitVec w := if t.ult v then t else v
/-- The unsigned maximum (R274). -/
def maxU {w : Nat} (t v : BitVec w) : BitVec w := if t.ult v then v else t

/-! ### Word forms: `aq` and `rl` never change the value computed (R260; log 1) -/

/-- LR.W (R264) -/
def execLrW (_aq _rl : Bool) (rd rs1 : XReg) (s : State) : Result :=
  loadReserve 4 rd rs1 s

/-- SC.W (R265) -/
def execScW (_aq _rl : Bool) (rd rs1 rs2 : XReg) (s : State) : Result :=
  storeConditional 4 rd rs1 rs2 s

/-- AMOSWAP.W (R266) -/
def execAmoswapW (_aq _rl : Bool) (rd rs1 rs2 : XReg) (s : State) : Result :=
  amo 4 (fun _ v => v) rd rs1 rs2 s

/-- AMOADD.W (R267) -/
def execAmoaddW (_aq _rl : Bool) (rd rs1 rs2 : XReg) (s : State) : Result :=
  amo 4 (fun t v => t + v) rd rs1 rs2 s

/-- AMOXOR.W (R268) -/
def execAmoxorW (_aq _rl : Bool) (rd rs1 rs2 : XReg) (s : State) : Result :=
  amo 4 (fun t v => t ^^^ v) rd rs1 rs2 s

/-- AMOOR.W (R269) -/
def execAmoorW (_aq _rl : Bool) (rd rs1 rs2 : XReg) (s : State) : Result :=
  amo 4 (fun t v => t ||| v) rd rs1 rs2 s

/-- AMOAND.W (R270) -/
def execAmoandW (_aq _rl : Bool) (rd rs1 rs2 : XReg) (s : State) : Result :=
  amo 4 (fun t v => t &&& v) rd rs1 rs2 s

/-- AMOMIN.W (R271) -/
def execAmominW (_aq _rl : Bool) (rd rs1 rs2 : XReg) (s : State) : Result :=
  amo 4 minS rd rs1 rs2 s

/-- AMOMAX.W (R272) -/
def execAmomaxW (_aq _rl : Bool) (rd rs1 rs2 : XReg) (s : State) : Result :=
  amo 4 maxS rd rs1 rs2 s

/-- AMOMINU.W (R273) -/
def execAmominuW (_aq _rl : Bool) (rd rs1 rs2 : XReg) (s : State) : Result :=
  amo 4 minU rd rs1 rs2 s

/-- AMOMAXU.W (R274) -/
def execAmomaxuW (_aq _rl : Bool) (rd rs1 rs2 : XReg) (s : State) : Result :=
  amo 4 maxU rd rs1 rs2 s

/-! ### Doubleword forms (`XLEN = 64` only): `aq` and `rl` never change the value computed (R260; log 1) -/

/-- LR.D (R275) -/
def execLrD (aq rl : Bool) (rd rs1 : XReg) (s : State) : Result :=
  when64 (.lrD aq rl rd rs1) s (loadReserve 8 rd rs1 s)

/-- SC.D (R276) -/
def execScD (aq rl : Bool) (rd rs1 rs2 : XReg) (s : State) : Result :=
  when64 (.scD aq rl rd rs1 rs2) s (storeConditional 8 rd rs1 rs2 s)

/-- AMOSWAP.D (R277) -/
def execAmoswapD (aq rl : Bool) (rd rs1 rs2 : XReg) (s : State) : Result :=
  when64 (.amoswapD aq rl rd rs1 rs2) s (amo 8 (fun _ v => v) rd rs1 rs2 s)

/-- AMOADD.D (R278) -/
def execAmoaddD (aq rl : Bool) (rd rs1 rs2 : XReg) (s : State) : Result :=
  when64 (.amoaddD aq rl rd rs1 rs2) s (amo 8 (fun t v => t + v) rd rs1 rs2 s)

/-- AMOXOR.D (R279) -/
def execAmoxorD (aq rl : Bool) (rd rs1 rs2 : XReg) (s : State) : Result :=
  when64 (.amoxorD aq rl rd rs1 rs2) s (amo 8 (fun t v => t ^^^ v) rd rs1 rs2 s)

/-- AMOOR.D (R280) -/
def execAmoorD (aq rl : Bool) (rd rs1 rs2 : XReg) (s : State) : Result :=
  when64 (.amoorD aq rl rd rs1 rs2) s (amo 8 (fun t v => t ||| v) rd rs1 rs2 s)

/-- AMOAND.D (R281) -/
def execAmoandD (aq rl : Bool) (rd rs1 rs2 : XReg) (s : State) : Result :=
  when64 (.amoandD aq rl rd rs1 rs2) s (amo 8 (fun t v => t &&& v) rd rs1 rs2 s)

/-- AMOMIN.D (R282) -/
def execAmominD (aq rl : Bool) (rd rs1 rs2 : XReg) (s : State) : Result :=
  when64 (.amominD aq rl rd rs1 rs2) s (amo 8 minS rd rs1 rs2 s)

/-- AMOMAX.D (R283) -/
def execAmomaxD (aq rl : Bool) (rd rs1 rs2 : XReg) (s : State) : Result :=
  when64 (.amomaxD aq rl rd rs1 rs2) s (amo 8 maxS rd rs1 rs2 s)

/-- AMOMINU.D (R284) -/
def execAmominuD (aq rl : Bool) (rd rs1 rs2 : XReg) (s : State) : Result :=
  when64 (.amominuD aq rl rd rs1 rs2) s (amo 8 minU rd rs1 rs2 s)

/-- AMOMAXU.D (R285) -/
def execAmomaxuD (aq rl : Bool) (rd rs1 rs2 : XReg) (s : State) : Result :=
  when64 (.amomaxuD aq rl rd rs1 rs2) s (amo 8 maxU rd rs1 rs2 s)

end Sys2Proof.Machine
end

