-- ==== Sys2Proof/Machine/ControlFlow.lean ====
section
/-! DEFINITION. Jumps and branches (`40_rv32i.md` R161, R165 to R172). -/

namespace Sys2Proof.Machine

/-- JAL (R165): link, then `pc <- pc + off`; a misaligned target raises and writes no link. -/
def execJal (rd : XReg) (off : BitVec 21) (s : State) : Result :=
  transfer s (writeX rd (nextPc s) s) (pcPlus s off)

/-- The target of JALR: `(x[rs1] + sext_XLEN(imm)) & ~1` (R166). -/
def jalrTarget (s : State) (rs1 : XReg) (imm : BitVec 12) : BitVec s.bits := effAddr s rs1 imm &&& ~~~1

/-- JALR (R166): the target uses the old value of `rs1`, also when `rd = rs1`. -/
def execJalr (rd rs1 : XReg) (imm : BitVec 12) (s : State) : Result :=
  transfer s (writeX rd (nextPc s) s) (jalrTarget s rs1 imm)

/-! ### Conditional branches (R167 to R172) -/

/-- A branch: if `taken`, transfer to `pc + off`, which raises if misaligned; else fall through, whatever the offset
(R161). -/
def branch {n : Nat} (s : State) (taken : Bool) (off : BitVec n) : Result :=
  if taken then transfer s s (pcPlus s off) else retire s

/-- BEQ (R167): all `XLEN` bits compared. -/
def execBeq (rs1 rs2 : XReg) (off : BitVec 13) (s : State) : Result :=
  branch s (readX s.bits s rs1 == readX s.bits s rs2) off

/-- BNE (R168) -/
def execBne (rs1 rs2 : XReg) (off : BitVec 13) (s : State) : Result :=
  branch s (readX s.bits s rs1 != readX s.bits s rs2) off

/-- BLT (R169): signed. -/
def execBlt (rs1 rs2 : XReg) (off : BitVec 13) (s : State) : Result :=
  branch s ((readX s.bits s rs1).slt (readX s.bits s rs2)) off

/-- BGE (R170): signed; equal operands are taken. -/
def execBge (rs1 rs2 : XReg) (off : BitVec 13) (s : State) : Result :=
  branch s (!(readX s.bits s rs1).slt (readX s.bits s rs2)) off

/-- BLTU (R171): unsigned. -/
def execBltu (rs1 rs2 : XReg) (off : BitVec 13) (s : State) : Result :=
  branch s ((readX s.bits s rs1).ult (readX s.bits s rs2)) off

/-- BGEU (R172): unsigned. -/
def execBgeu (rs1 rs2 : XReg) (off : BitVec 13) (s : State) : Result :=
  branch s (!(readX s.bits s rs1).ult (readX s.bits s rs2)) off

end Sys2Proof.Machine
end

