-- ==== Sys2Proof/Machine/Ieee.lean ====
section
/-! DEFINITION. IEEE 754-2008 arithmetic on binary32 and binary64 as `44_f_single.md` R300, R304 to R307 and
`45_d_double.md` R370 give it: every operation computes exactly over naturals and integers and rounds once. -/

namespace Sys2Proof.Machine

/-! ### Formats and data (R300, R370) -/

/-- A binary interchange format: how many exponent and fraction bits it has. -/
structure FloatFormat where
  expBits : Nat
  fracBits : Nat
deriving DecidableEq, Repr

/-- binary32 (R300): 8 exponent bits, 23 fraction bits. -/
def binary32 : FloatFormat := ⟨8, 23⟩
/-- binary64 (R370): 11 exponent bits, 52 fraction bits. -/
def binary64 : FloatFormat := ⟨11, 52⟩

/-- The bits of a datum: sign, exponent, fraction. -/
def FloatFormat.width (F : FloatFormat) : Nat := 1 + F.expBits + F.fracBits
/-- The exponent bias. -/
def FloatFormat.bias (F : FloatFormat) : Int := 2 ^ (F.expBits - 1) - 1
/-- The least exponent of a normal number, `emin`. -/
def FloatFormat.emin (F : FloatFormat) : Int := 1 - F.bias
/-- The exponent of the unit in the last place of the subnormal numbers. -/
def FloatFormat.qmin (F : FloatFormat) : Int := F.emin - F.fracBits
/-- The exponent and fraction bits of infinity; every finite magnitude is below. -/
def FloatFormat.infMag (F : FloatFormat) : Nat := (2 ^ F.expBits - 1) * 2 ^ F.fracBits

/-- The value of a datum: a NaN, an infinity, or `sig * 2^exp` with a sign. A zero has `sig = 0` and a sign. -/
inductive Datum where
  | nan (signaling : Bool)
  | inf (neg : Bool)
  | fin (neg : Bool) (sig : Nat) (exp : Int)
deriving DecidableEq, Repr

/-- The sign bit. -/
def signBit (F : FloatFormat) (v : BitVec F.width) : Bool := v.getLsbD (F.expBits + F.fracBits)
/-- The biased exponent. -/
def expField (F : FloatFormat) (v : BitVec F.width) : Nat := v.toNat / 2 ^ F.fracBits % 2 ^ F.expBits
/-- The fraction. -/
def fracField (F : FloatFormat) (v : BitVec F.width) : Nat := v.toNat % 2 ^ F.fracBits

/-- What the bits stand for (R300). -/
def unpack (F : FloatFormat) (v : BitVec F.width) : Datum :=
  let e := expField F v
  let m := fracField F v
  if e = 2 ^ F.expBits - 1 then
    if m = 0 then .inf (signBit F v) else .nan (m < 2 ^ (F.fracBits - 1))
  else if e = 0 then .fin (signBit F v) m F.qmin
  else .fin (signBit F v) (2 ^ F.fracBits + m) (F.qmin + (e - 1 : Nat))

/-- The bits of a sign and a magnitude (exponent and fraction bits together). -/
def pack (F : FloatFormat) (neg : Bool) (mag : Nat) : BitVec F.width :=
  BitVec.ofNat F.width ((if neg then 2 ^ (F.expBits + F.fracBits) else 0) + mag)

/-- The canonical NaN: positive, quiet, zero payload (R305). -/
def canonicalNaN (F : FloatFormat) : BitVec F.width := pack F false (F.infMag + 2 ^ (F.fracBits - 1))
/-- Infinity with a sign. -/
def infinity (F : FloatFormat) (neg : Bool) : BitVec F.width := pack F neg F.infMag
/-- Zero with a sign. -/
def zero (F : FloatFormat) (neg : Bool) : BitVec F.width := pack F neg 0

/-- A NaN. -/
def Datum.isNaN : Datum → Bool
  | .nan _ => true
  | _ => false
/-- A signaling NaN. -/
def Datum.isSignaling : Datum → Bool
  | .nan s => s
  | _ => false
/-- The datum with the opposite sign; a NaN stays. -/
def Datum.negate : Datum → Datum
  | .nan s => .nan s
  | .inf neg => .inf (!neg)
  | .fin neg sig exp => .fin (!neg) sig exp
/-- Negated if `b`. -/
def Datum.negateIf (b : Bool) (d : Datum) : Datum := if b then d.negate else d

/-- The result bits of an operation and the exceptions it signals. -/
abbrev FpResult (F : FloatFormat) := BitVec F.width × Flags

/-- The canonical NaN, NV if `invalid`: what every operation that creates or meets a NaN delivers (R305). -/
def nanResult (F : FloatFormat) (invalid : Bool) : FpResult F := (canonicalNaN F, .invalidIf invalid)

/-! ### Rounding (R304) -/

/-- Whether a magnitude whose kept part is `kept` and whose cut part is `rem / unit`, below one, goes up. -/
def roundsUp (mode : RoundingMode) (neg : Bool) (kept rem unit : Nat) : Bool :=
  match mode with
  | .rne => decide (unit < 2 * rem) || (decide (unit = 2 * rem) && kept % 2 == 1)
  | .rtz => false
  | .rdn => neg && rem != 0
  | .rup => !neg && rem != 0
  | .rmm => decide (unit ≤ 2 * rem)

/-- The magnitude `sig * 2^shift` rounded to an integer, and whether that changed it. -/
def roundShift (mode : RoundingMode) (neg : Bool) (sig : Nat) (shift : Int) : Nat × Bool :=
  if 0 ≤ shift then (sig * 2 ^ shift.toNat, false)
  else
    let unit := 2 ^ (-shift).toNat
    let kept := sig / unit
    let rem := sig % unit
    (kept + if roundsUp mode neg kept rem unit then 1 else 0, rem != 0)

/-- The overflowed result: infinity or the largest finite number, by mode and sign (R304). -/
def overflowBits (F : FloatFormat) (mode : RoundingMode) (neg : Bool) : BitVec F.width :=
  let toInf :=
    match mode with
    | .rne => true
    | .rmm => true
    | .rtz => false
    | .rdn => neg
    | .rup => !neg
  pack F neg (if toInf then F.infMag else F.infMag - 1)

/-- The exact magnitude `sig * 2^exp` is tiny: rounded to the format's precision with unbounded exponent range it
lies below `2^emin` (R304: tininess after rounding). -/
def tinyAfterRounding (F : FloatFormat) (mode : RoundingMode) (neg : Bool) (sig : Nat) (exp : Int) : Bool :=
  let q := exp + sig.log2 - F.fracBits
  q < F.qmin && (roundShift mode neg sig (exp - q)).1 < 2 ^ (F.emin - q).toNat

/-- Round `sig * 2^exp`, `sig` not 0, with a sign, once, to the format: result and flags (R304). The unit in the last
place is the normal one or, below `2^emin`, the subnormal one; a carry out of the significand runs into the exponent
bits of the magnitude. -/
def roundPos (F : FloatFormat) (mode : RoundingMode) (neg : Bool) (sig : Nat) (exp : Int) : FpResult F :=
  let q := max F.qmin (exp + sig.log2 - F.fracBits)
  let r := roundShift mode neg sig (exp - q)
  let mag := (q - F.qmin).toNat * 2 ^ F.fracBits + r.1
  if F.infMag ≤ mag then (overflowBits F mode neg, { ofl := true, nx := true })
  else (pack F neg mag, { ufl := tinyAfterRounding F mode neg sig exp && r.2, nx := r.2 })

/-- Round `±sig * 2^exp`; an exact zero keeps its sign and signals nothing. -/
def roundFin (F : FloatFormat) (mode : RoundingMode) (neg : Bool) (sig : Nat) (exp : Int) : FpResult F :=
  if sig = 0 then (zero F neg, .none) else roundPos F mode neg sig exp

/-- Round the integer multiple `v * 2^exp`; an exact zero takes the sign `zeroNeg`. -/
def roundInt (F : FloatFormat) (mode : RoundingMode) (zeroNeg : Bool) (v exp : Int) : FpResult F :=
  roundFin F mode (if v = 0 then zeroNeg else v < 0) v.natAbs exp

/-! ### Sums and products -/

/-- `±sig` as an integer. -/
def signedSig (neg : Bool) (sig : Nat) : Int := if neg then -(sig : Int) else sig

/-- `±sig * 2^exp` in units of `2^base`, for `base ≤ exp`. -/
def scaled (neg : Bool) (sig : Nat) (exp base : Int) : Int := signedSig neg sig * 2 ^ (exp - base).toNat

/-- The sign of an exact zero sum: that of both operands if they agree, else `+` but in RDN (R304). -/
def zeroSumNeg (mode : RoundingMode) (neg₁ neg₂ : Bool) : Bool :=
  if neg₁ = neg₂ then neg₁ else mode == .rdn

/-- The exact sum of two finite values, rounded once. -/
def addFin (F : FloatFormat) (mode : RoundingMode) (neg₁ : Bool) (sig₁ : Nat) (exp₁ : Int) (neg₂ : Bool) (sig₂ : Nat)
    (exp₂ : Int) : FpResult F :=
  let base := min exp₁ exp₂
  roundInt F mode (zeroSumNeg mode neg₁ neg₂) (scaled neg₁ sig₁ exp₁ base + scaled neg₂ sig₂ exp₂ base) base

/-- Sum of two data; `invalid` says that NV is already due. `inf - inf` is invalid (R305). -/
def addDatum (F : FloatFormat) (mode : RoundingMode) : Datum → Datum → FpResult F
  | .nan s, d => nanResult F (s || d.isSignaling)
  | .inf _, .nan s => nanResult F s
  | .inf n, .inf m => if n = m then (infinity F n, .none) else nanResult F true
  | .inf n, .fin .. => (infinity F n, .none)
  | .fin .., .nan s => nanResult F s
  | .fin .., .inf m => (infinity F m, .none)
  | .fin n s e, .fin n' s' e' => addFin F mode n s e n' s' e'

/-- The exact product of two data, not rounded; `none` for `0 * inf` (R305). A NaN operand gives a NaN, signaling if
some operand is. -/
def mulExact : Datum → Datum → Option Datum
  | .nan s, d => some (.nan (s || d.isSignaling))
  | .inf _, .nan s => some (.nan s)
  | .fin .., .nan s => some (.nan s)
  | .inf n, .inf m => some (.inf (n ^^ m))
  | .inf n, .fin m sig _ => if sig = 0 then none else some (.inf (n ^^ m))
  | .fin n sig _, .inf m => if sig = 0 then none else some (.inf (n ^^ m))
  | .fin n s e, .fin n' s' e' => some (.fin (n ^^ n') (s * s') (e + e'))

/-- A datum rounded to the format. -/
def roundDatum (F : FloatFormat) (mode : RoundingMode) : Datum → FpResult F
  | .nan s => nanResult F s
  | .inf n => (infinity F n, .none)
  | .fin n s e => roundFin F mode n s e

/-- `round(a + b)` -/
def fAdd (F : FloatFormat) (mode : RoundingMode) (a b : BitVec F.width) : FpResult F :=
  addDatum F mode (unpack F a) (unpack F b)

/-- `round(a - b)` -/
def fSub (F : FloatFormat) (mode : RoundingMode) (a b : BitVec F.width) : FpResult F :=
  addDatum F mode (unpack F a) (unpack F b).negate

/-- `round(a * b)` -/
def fMul (F : FloatFormat) (mode : RoundingMode) (a b : BitVec F.width) : FpResult F :=
  match mulExact (unpack F a) (unpack F b) with
  | some d => roundDatum F mode d
  | none => nanResult F true

/-- `round(±(a * b) ± c)`: the product is exact, one rounding (R312 to R315). `0 * inf` is invalid whatever the addend
(R305). -/
def fMulAdd (F : FloatFormat) (mode : RoundingMode) (negProduct negAddend : Bool) (a b c : BitVec F.width) :
    FpResult F :=
  match mulExact (unpack F a) (unpack F b) with
  | some d => addDatum F mode (d.negateIf negProduct) ((unpack F c).negateIf negAddend)
  | none => nanResult F true

/-! ### Division and square root -/

/-- `2 * q`, with its lowest bit set if `inexact`: an integer on the same side of every even number, and of half way
between two of them, as the exact value it stands for. -/
def jam (q : Nat) (inexact : Bool) : Nat := 2 * q + if inexact then 1 else 0

/-- The exact quotient of two positive significands, cut at least two places below the last one a result keeps, with
what was cut off jammed into the lowest bit: significand and exponent. -/
def divSig (F : FloatFormat) (sig₁ : Nat) (exp₁ : Int) (sig₂ : Nat) (exp₂ : Int) : Nat × Int :=
  let k := F.fracBits + 4 + sig₂.log2
  let n := sig₁ * 2 ^ k
  (jam (n / sig₂) (n % sig₂ != 0), exp₁ - exp₂ - k - 1)

/-- `round(a / b)`: DZ for a finite nonzero number over zero, NV for `0 / 0` and `inf / inf` (R305, R319). -/
def divDatum (F : FloatFormat) (mode : RoundingMode) : Datum → Datum → FpResult F
  | .nan s, d => nanResult F (s || d.isSignaling)
  | .inf _, .nan s => nanResult F s
  | .fin .., .nan s => nanResult F s
  | .inf _, .inf _ => nanResult F true
  | .inf n, .fin m _ _ => (infinity F (n ^^ m), .none)
  | .fin n _ _, .inf m => (zero F (n ^^ m), .none)
  | .fin n s e, .fin n' s' e' =>
    if s' = 0 then
      if s = 0 then nanResult F true else (infinity F (n ^^ n'), .divideByZero)
    else if s = 0 then (zero F (n ^^ n'), .none)
    else
      let d := divSig F s e s' e'
      roundFin F mode (n ^^ n') d.1 d.2

/-- `round(a / b)` -/
def fDiv (F : FloatFormat) (mode : RoundingMode) (a b : BitVec F.width) : FpResult F :=
  divDatum F mode (unpack F a) (unpack F b)

/-- The integer square root, bit by bit from bit `k` down: the largest `r` with `r * r ≤ n`, given the bits of `r`
above `k`. -/
def isqrtFrom : Nat → Nat → Nat → Nat
  | 0, n, acc => if (acc + 1) * (acc + 1) ≤ n then acc + 1 else acc
  | k + 1, n, acc =>
    let c := acc + 2 ^ (k + 1)
    isqrtFrom k n (if c * c ≤ n then c else acc)

/-- The integer square root. -/
def isqrt (n : Nat) : Nat := isqrtFrom (n.log2 / 2) n 0

/-- The exact root of a positive `sig * 2^exp`, cut and jammed as in `divSig`. -/
def sqrtSig (F : FloatFormat) (sig : Nat) (exp : Int) : Nat × Int :=
  let k := 2 * (F.fracBits + 4) + (exp % 2).toNat
  let n := sig * 2 ^ k
  let r := isqrt n
  (jam r (r * r != n), (exp - k) / 2 - 1)

/-- `round(sqrt(a))`: NV for a negative nonzero number; `sqrt(-0) = -0` (R325). -/
def sqrtDatum (F : FloatFormat) (mode : RoundingMode) : Datum → FpResult F
  | .nan s => nanResult F s
  | .inf n => if n then nanResult F true else (infinity F false, .none)
  | .fin n s e =>
    if s = 0 then (zero F n, .none)
    else if n then nanResult F true
    else
      let d := sqrtSig F s e
      roundFin F mode false d.1 d.2

/-- `round(sqrt(a))` -/
def fSqrt (F : FloatFormat) (mode : RoundingMode) (a : BitVec F.width) : FpResult F := sqrtDatum F mode (unpack F a)

/-! ### Comparisons, minimum, maximum, classification -/

/-- `a < b` as numbers; false if either is a NaN. `-0` and `+0` are equal. -/
def Datum.lt : Datum → Datum → Bool
  | .nan _, _ => false
  | _, .nan _ => false
  | .inf n, .inf m => n && !m
  | .inf n, .fin .. => n
  | .fin .., .inf m => !m
  | .fin n s e, .fin n' s' e' =>
    let base := min e e'
    decide (scaled n s e base < scaled n' s' e' base)

/-- `a = b` as numbers; false if either is a NaN. -/
def Datum.eqv : Datum → Datum → Bool
  | .nan _, _ => false
  | _, .nan _ => false
  | .inf n, .inf m => n == m
  | .inf _, .fin .. => false
  | .fin .., .inf _ => false
  | .fin n s e, .fin n' s' e' =>
    let base := min e e'
    decide (scaled n s e base = scaled n' s' e' base)

/-- `a <= b`, signaling: NV for any NaN operand (R326). -/
def fLe (F : FloatFormat) (a b : BitVec F.width) : Bool × Flags :=
  let x := unpack F a
  let y := unpack F b
  if x.isNaN || y.isNaN then (false, .invalid) else (x.lt y || x.eqv y, .none)

/-- `a < b`, signaling: NV for any NaN operand (R327). -/
def fLt (F : FloatFormat) (a b : BitVec F.width) : Bool × Flags :=
  let x := unpack F a
  let y := unpack F b
  if x.isNaN || y.isNaN then (false, .invalid) else (x.lt y, .none)

/-- `a == b`, quiet: NV for a signaling NaN operand only (R328). -/
def fEq (F : FloatFormat) (a b : BitVec F.width) : Bool × Flags :=
  let x := unpack F a
  let y := unpack F b
  (x.eqv y, .invalidIf (x.isSignaling || y.isSignaling))

/-- `a` is the smaller, with `-0` smaller than `+0` (R323). -/
def smaller (F : FloatFormat) (a b : BitVec F.width) : Bool :=
  let x := unpack F a
  let y := unpack F b
  x.lt y || (x.eqv y && signBit F a && !signBit F b)

/-- The NaN rule of FMIN and FMAX, `pickFirst` choosing between two numbers (R323, R324, D29). -/
def minMax (F : FloatFormat) (pickFirst : Bool) (a b : BitVec F.width) : FpResult F :=
  let x := unpack F a
  let y := unpack F b
  let v :=
    if x.isNaN then (if y.isNaN then canonicalNaN F else b)
    else if y.isNaN then a
    else if pickFirst then a else b
  (v, .invalidIf (x.isSignaling || y.isSignaling))

/-- FMIN (R323). -/
def fMin (F : FloatFormat) (a b : BitVec F.width) : FpResult F := minMax F (smaller F a b) a b
/-- FMAX (R324). -/
def fMax (F : FloatFormat) (a b : BitVec F.width) : FpResult F := minMax F (smaller F b a) a b

/-- The number of the class bit FCLASS sets (R334). -/
def classBit (F : FloatFormat) : Datum → Nat
  | .nan signaling => if signaling then 8 else 9
  | .inf neg => if neg then 0 else 7
  | .fin neg sig _ =>
    if sig = 0 then (if neg then 3 else 4)
    else if sig < 2 ^ F.fracBits then (if neg then 2 else 5)
    else if neg then 1 else 6

/-- The ten-bit class mask (R334). -/
def fClass (F : FloatFormat) (a : BitVec F.width) : BitVec 10 := 1 <<< classBit F (unpack F a)

/-! ### Conversions to and from integers (R306, R307) -/

/-- The conversion of a datum to an integer in `[lo, hi]`: rounded under the mode, NX if that changed it; out of range,
infinite or NaN saturates with NV (R306). -/
def toIntegerIn (lo hi : Int) (mode : RoundingMode) : Datum → Int × Flags
  | .nan _ => (hi, .invalid)
  | .inf neg => (if neg then lo else hi, .invalid)
  | .fin neg sig exp =>
    let r := roundShift mode neg sig exp
    let v := signedSig neg r.1
    if v < lo then (lo, .invalid) else if hi < v then (hi, .invalid) else (v, .inexactIf r.2)

/-- To a signed integer of `k` bits: `cvt_W` for 32, `cvt_L` for 64. -/
def fToSigned (F : FloatFormat) (k : Nat) (mode : RoundingMode) (a : BitVec F.width) : BitVec k × Flags :=
  let r := toIntegerIn (-2 ^ (k - 1)) (2 ^ (k - 1) - 1) mode (unpack F a)
  (BitVec.ofInt k r.1, r.2)

/-- To an unsigned integer of `k` bits: `cvt_WU` for 32, `cvt_LU` for 64. -/
def fToUnsigned (F : FloatFormat) (k : Nat) (mode : RoundingMode) (a : BitVec F.width) : BitVec k × Flags :=
  let r := toIntegerIn 0 (2 ^ k - 1) mode (unpack F a)
  (BitVec.ofInt k r.1, r.2)

/-- From an integer: exact, then rounded once; 0 gives `+0` (R307). -/
def fromInteger (F : FloatFormat) (mode : RoundingMode) (v : Int) : FpResult F := roundInt F mode false v 0

end Sys2Proof.Machine
end

