-- ==== Sys2Proof/Machine/FloatDouble.lean ====
section
/-! DEFINITION. The D extension (`45_d_double.md`): the computational instructions. -/

namespace Sys2Proof.Machine

/-! ### Fused multiply-add: one rounding -/

/-- FMADD.D (R374): `a * b + c`. -/
def execFmaddD (rm : BitVec 3) (rd rs1 rs2 rs3 : FReg) (s : State) : Result :=
  withMode (.fmaddD rm rd rs1 rs2 rs3) rm s fun mode =>
    retireD rd (fMulAdd binary64 mode false false (readF s rs1) (readF s rs2) (readF s rs3)) s

/-- FMSUB.D (R375): `a * b - c`. -/
def execFmsubD (rm : BitVec 3) (rd rs1 rs2 rs3 : FReg) (s : State) : Result :=
  withMode (.fmsubD rm rd rs1 rs2 rs3) rm s fun mode =>
    retireD rd (fMulAdd binary64 mode false true (readF s rs1) (readF s rs2) (readF s rs3)) s

/-- FNMSUB.D (R376): `-(a * b) + c`. -/
def execFnmsubD (rm : BitVec 3) (rd rs1 rs2 rs3 : FReg) (s : State) : Result :=
  withMode (.fnmsubD rm rd rs1 rs2 rs3) rm s fun mode =>
    retireD rd (fMulAdd binary64 mode true false (readF s rs1) (readF s rs2) (readF s rs3)) s

/-- FNMADD.D (R377): `-(a * b) - c`. -/
def execFnmaddD (rm : BitVec 3) (rd rs1 rs2 rs3 : FReg) (s : State) : Result :=
  withMode (.fnmaddD rm rd rs1 rs2 rs3) rm s fun mode =>
    retireD rd (fMulAdd binary64 mode true true (readF s rs1) (readF s rs2) (readF s rs3)) s

/-! ### Add, subtract, multiply, divide, square root -/

/-- FADD.D (R378) -/
def execFaddD (rm : BitVec 3) (rd rs1 rs2 : FReg) (s : State) : Result :=
  withMode (.faddD rm rd rs1 rs2) rm s fun mode => retireD rd (fAdd binary64 mode (readF s rs1) (readF s rs2)) s

/-- FSUB.D (R379) -/
def execFsubD (rm : BitVec 3) (rd rs1 rs2 : FReg) (s : State) : Result :=
  withMode (.fsubD rm rd rs1 rs2) rm s fun mode => retireD rd (fSub binary64 mode (readF s rs1) (readF s rs2)) s

/-- FMUL.D (R380) -/
def execFmulD (rm : BitVec 3) (rd rs1 rs2 : FReg) (s : State) : Result :=
  withMode (.fmulD rm rd rs1 rs2) rm s fun mode => retireD rd (fMul binary64 mode (readF s rs1) (readF s rs2)) s

/-- FDIV.D (R381) -/
def execFdivD (rm : BitVec 3) (rd rs1 rs2 : FReg) (s : State) : Result :=
  withMode (.fdivD rm rd rs1 rs2) rm s fun mode => retireD rd (fDiv binary64 mode (readF s rs1) (readF s rs2)) s

/-- FSQRT.D (R387) -/
def execFsqrtD (rm : BitVec 3) (rd rs1 : FReg) (s : State) : Result :=
  withMode (.fsqrtD rm rd rs1) rm s fun mode => retireD rd (fSqrt binary64 mode (readF s rs1)) s

/-! ### Sign injection: bits move, no flag, no rounding mode -/

/-- `{sign, v[62:0]}`. -/
def signInject64 (sign : Bool) (v : BitVec 64) : BitVec 64 := BitVec.ofBool sign ++ v.extractLsb' 0 63

/-- FSGNJ.D (R382) -/
def execFsgnjD (rd rs1 rs2 : FReg) (s : State) : Result :=
  retireF rd (signInject64 ((readF s rs2).getLsbD 63) (readF s rs1)) s

/-- FSGNJN.D (R383) -/
def execFsgnjnD (rd rs1 rs2 : FReg) (s : State) : Result :=
  retireF rd (signInject64 (!(readF s rs2).getLsbD 63) (readF s rs1)) s

/-- FSGNJX.D (R384) -/
def execFsgnjxD (rd rs1 rs2 : FReg) (s : State) : Result :=
  retireF rd (signInject64 ((readF s rs1).getLsbD 63 ^^ (readF s rs2).getLsbD 63) (readF s rs1)) s

/-! ### Minimum, maximum, comparisons, classification: no rounding mode -/

/-- FMIN.D (R385) -/
def execFminD (rd rs1 rs2 : FReg) (s : State) : Result :=
  retireD rd (fMin binary64 (readF s rs1) (readF s rs2)) s

/-- FMAX.D (R386) -/
def execFmaxD (rd rs1 rs2 : FReg) (s : State) : Result :=
  retireD rd (fMax binary64 (readF s rs1) (readF s rs2)) s

/-- FLE.D (R388): signaling. -/
def execFleD (rd : XReg) (rs1 rs2 : FReg) (s : State) : Result :=
  retireBool rd (fLe binary64 (readF s rs1) (readF s rs2)) s

/-- FLT.D (R389): signaling. -/
def execFltD (rd : XReg) (rs1 rs2 : FReg) (s : State) : Result :=
  retireBool rd (fLt binary64 (readF s rs1) (readF s rs2)) s

/-- FEQ.D (R390): quiet. -/
def execFeqD (rd : XReg) (rs1 rs2 : FReg) (s : State) : Result :=
  retireBool rd (fEq binary64 (readF s rs1) (readF s rs2)) s

/-- FCLASS.D (R395): no flag. -/
def execFclassD (rd : XReg) (rs1 : FReg) (s : State) : Result :=
  retireX rd ((fClass binary64 (readF s rs1)).setWidth s.bits) s

/-! ### Conversions to and from integers -/

/-- FCVT.W.D (R391) -/
def execFcvtWD (rm : BitVec 3) (rd : XReg) (rs1 : FReg) (s : State) : Result :=
  withMode (.fcvtWD rm rd rs1) rm s fun mode => retireInt rd (fToSigned binary64 32 mode (readF s rs1)) s

/-- FCVT.WU.D (R392): the 32-bit result is sign-extended. -/
def execFcvtWuD (rm : BitVec 3) (rd : XReg) (rs1 : FReg) (s : State) : Result :=
  withMode (.fcvtWuD rm rd rs1) rm s fun mode => retireInt rd (fToUnsigned binary64 32 mode (readF s rs1)) s

/-- FCVT.L.D (R396) -/
def execFcvtLD (rm : BitVec 3) (rd : XReg) (rs1 : FReg) (s : State) : Result :=
  when64 (.fcvtLD rm rd rs1) s <|
    withMode (.fcvtLD rm rd rs1) rm s fun mode => retireInt rd (fToSigned binary64 64 mode (readF s rs1)) s

/-- FCVT.LU.D (R397) -/
def execFcvtLuD (rm : BitVec 3) (rd : XReg) (rs1 : FReg) (s : State) : Result :=
  when64 (.fcvtLuD rm rd rs1) s <|
    withMode (.fcvtLuD rm rd rs1) rm s fun mode => retireInt rd (fToUnsigned binary64 64 mode (readF s rs1)) s

/-- FCVT.D.W (R393): exact in every mode; a reserved mode raises all the same (D21). -/
def execFcvtDW (rm : BitVec 3) (rd : FReg) (rs1 : XReg) (s : State) : Result :=
  withMode (.fcvtDW rm rd rs1) rm s fun mode => retireD rd (fromInteger binary64 mode (readX 32 s rs1).toInt) s

/-- FCVT.D.WU (R394): exact in every mode; a reserved mode raises all the same (D21). -/
def execFcvtDWu (rm : BitVec 3) (rd : FReg) (rs1 : XReg) (s : State) : Result :=
  withMode (.fcvtDWu rm rd rs1) rm s fun mode => retireD rd (fromInteger binary64 mode (readX 32 s rs1).toNat) s

/-- FCVT.D.L (R398) -/
def execFcvtDL (rm : BitVec 3) (rd : FReg) (rs1 : XReg) (s : State) : Result :=
  when64 (.fcvtDL rm rd rs1) s <|
    withMode (.fcvtDL rm rd rs1) rm s fun mode => retireD rd (fromInteger binary64 mode (readX 64 s rs1).toInt) s

/-- FCVT.D.LU (R399) -/
def execFcvtDLu (rm : BitVec 3) (rd : FReg) (rs1 : XReg) (s : State) : Result :=
  when64 (.fcvtDLu rm rd rs1) s <|
    withMode (.fcvtDLu rm rd rs1) rm s fun mode => retireD rd (fromInteger binary64 mode (readX 64 s rs1).toNat) s

/-! ### Moves of raw bits -/

/-- FMV.X.D (R400) -/
def execFmvXD (rd : XReg) (rs1 : FReg) (s : State) : Result :=
  when64 (.fmvXD rd rs1) s (retireX rd (readF s rs1) s)

/-- FMV.D.X (R401) -/
def execFmvDX (rd : FReg) (rs1 : XReg) (s : State) : Result :=
  when64 (.fmvDX rd rs1) s (retireF rd (readX 64 s rs1) s)

end Sys2Proof.Machine
end

