-- ==== Sys2Proof/Machine/FloatSingle.lean ====
section
/-! DEFINITION. The F extension (`44_f_single.md`): the computational instructions. -/

namespace Sys2Proof.Machine

/-! ### Fused multiply-add: one rounding -/

/-- FMADD.S (R312): `a * b + c`. -/
def execFmaddS (rm : BitVec 3) (rd rs1 rs2 rs3 : FReg) (s : State) : Result :=
  withMode (.fmaddS rm rd rs1 rs2 rs3) rm s fun mode =>
    retireS rd (fMulAdd binary32 mode false false (readS s rs1) (readS s rs2) (readS s rs3)) s

/-- FMSUB.S (R313): `a * b - c`. -/
def execFmsubS (rm : BitVec 3) (rd rs1 rs2 rs3 : FReg) (s : State) : Result :=
  withMode (.fmsubS rm rd rs1 rs2 rs3) rm s fun mode =>
    retireS rd (fMulAdd binary32 mode false true (readS s rs1) (readS s rs2) (readS s rs3)) s

/-- FNMSUB.S (R314): `-(a * b) + c`. -/
def execFnmsubS (rm : BitVec 3) (rd rs1 rs2 rs3 : FReg) (s : State) : Result :=
  withMode (.fnmsubS rm rd rs1 rs2 rs3) rm s fun mode =>
    retireS rd (fMulAdd binary32 mode true false (readS s rs1) (readS s rs2) (readS s rs3)) s

/-- FNMADD.S (R315): `-(a * b) - c`. -/
def execFnmaddS (rm : BitVec 3) (rd rs1 rs2 rs3 : FReg) (s : State) : Result :=
  withMode (.fnmaddS rm rd rs1 rs2 rs3) rm s fun mode =>
    retireS rd (fMulAdd binary32 mode true true (readS s rs1) (readS s rs2) (readS s rs3)) s

/-! ### Add, subtract, multiply, divide, square root -/

/-- FADD.S (R316) -/
def execFaddS (rm : BitVec 3) (rd rs1 rs2 : FReg) (s : State) : Result :=
  withMode (.faddS rm rd rs1 rs2) rm s fun mode => retireS rd (fAdd binary32 mode (readS s rs1) (readS s rs2)) s

/-- FSUB.S (R317) -/
def execFsubS (rm : BitVec 3) (rd rs1 rs2 : FReg) (s : State) : Result :=
  withMode (.fsubS rm rd rs1 rs2) rm s fun mode => retireS rd (fSub binary32 mode (readS s rs1) (readS s rs2)) s

/-- FMUL.S (R318) -/
def execFmulS (rm : BitVec 3) (rd rs1 rs2 : FReg) (s : State) : Result :=
  withMode (.fmulS rm rd rs1 rs2) rm s fun mode => retireS rd (fMul binary32 mode (readS s rs1) (readS s rs2)) s

/-- FDIV.S (R319) -/
def execFdivS (rm : BitVec 3) (rd rs1 rs2 : FReg) (s : State) : Result :=
  withMode (.fdivS rm rd rs1 rs2) rm s fun mode => retireS rd (fDiv binary32 mode (readS s rs1) (readS s rs2)) s

/-- FSQRT.S (R325) -/
def execFsqrtS (rm : BitVec 3) (rd rs1 : FReg) (s : State) : Result :=
  withMode (.fsqrtS rm rd rs1) rm s fun mode => retireS rd (fSqrt binary32 mode (readS s rs1)) s

/-! ### Sign injection: bits move, no flag, no rounding mode -/

/-- `{sign, v[30:0]}`. -/
def signInject32 (sign : Bool) (v : BitVec 32) : BitVec 32 := BitVec.ofBool sign ++ v.extractLsb' 0 31

/-- FSGNJ.S (R320) -/
def execFsgnjS (rd rs1 rs2 : FReg) (s : State) : Result :=
  retireF rd (box (signInject32 ((readS s rs2).getLsbD 31) (readS s rs1))) s

/-- FSGNJN.S (R321) -/
def execFsgnjnS (rd rs1 rs2 : FReg) (s : State) : Result :=
  retireF rd (box (signInject32 (!(readS s rs2).getLsbD 31) (readS s rs1))) s

/-- FSGNJX.S (R322) -/
def execFsgnjxS (rd rs1 rs2 : FReg) (s : State) : Result :=
  retireF rd (box (signInject32 ((readS s rs1).getLsbD 31 ^^ (readS s rs2).getLsbD 31) (readS s rs1))) s

/-! ### Minimum, maximum, comparisons, classification: no rounding mode -/

/-- FMIN.S (R323) -/
def execFminS (rd rs1 rs2 : FReg) (s : State) : Result :=
  retireS rd (fMin binary32 (readS s rs1) (readS s rs2)) s

/-- FMAX.S (R324) -/
def execFmaxS (rd rs1 rs2 : FReg) (s : State) : Result :=
  retireS rd (fMax binary32 (readS s rs1) (readS s rs2)) s

/-- FLE.S (R326): signaling. -/
def execFleS (rd : XReg) (rs1 rs2 : FReg) (s : State) : Result :=
  retireBool rd (fLe binary32 (readS s rs1) (readS s rs2)) s

/-- FLT.S (R327): signaling. -/
def execFltS (rd : XReg) (rs1 rs2 : FReg) (s : State) : Result :=
  retireBool rd (fLt binary32 (readS s rs1) (readS s rs2)) s

/-- FEQ.S (R328): quiet. -/
def execFeqS (rd : XReg) (rs1 rs2 : FReg) (s : State) : Result :=
  retireBool rd (fEq binary32 (readS s rs1) (readS s rs2)) s

/-- FCLASS.S (R334): no flag. -/
def execFclassS (rd : XReg) (rs1 : FReg) (s : State) : Result :=
  retireX rd ((fClass binary32 (readS s rs1)).setWidth s.bits) s

/-! ### Conversions to and from integers -/

/-- FCVT.W.S (R329) -/
def execFcvtWS (rm : BitVec 3) (rd : XReg) (rs1 : FReg) (s : State) : Result :=
  withMode (.fcvtWS rm rd rs1) rm s fun mode => retireInt rd (fToSigned binary32 32 mode (readS s rs1)) s

/-- FCVT.WU.S (R330): the 32-bit result is sign-extended. -/
def execFcvtWuS (rm : BitVec 3) (rd : XReg) (rs1 : FReg) (s : State) : Result :=
  withMode (.fcvtWuS rm rd rs1) rm s fun mode => retireInt rd (fToUnsigned binary32 32 mode (readS s rs1)) s

/-- FCVT.L.S (R344) -/
def execFcvtLS (rm : BitVec 3) (rd : XReg) (rs1 : FReg) (s : State) : Result :=
  when64 (.fcvtLS rm rd rs1) s <|
    withMode (.fcvtLS rm rd rs1) rm s fun mode => retireInt rd (fToSigned binary32 64 mode (readS s rs1)) s

/-- FCVT.LU.S (R345) -/
def execFcvtLuS (rm : BitVec 3) (rd : XReg) (rs1 : FReg) (s : State) : Result :=
  when64 (.fcvtLuS rm rd rs1) s <|
    withMode (.fcvtLuS rm rd rs1) rm s fun mode => retireInt rd (fToUnsigned binary32 64 mode (readS s rs1)) s

/-- FCVT.S.W (R331) -/
def execFcvtSW (rm : BitVec 3) (rd : FReg) (rs1 : XReg) (s : State) : Result :=
  withMode (.fcvtSW rm rd rs1) rm s fun mode => retireS rd (fromInteger binary32 mode (readX 32 s rs1).toInt) s

/-- FCVT.S.WU (R332) -/
def execFcvtSWu (rm : BitVec 3) (rd : FReg) (rs1 : XReg) (s : State) : Result :=
  withMode (.fcvtSWu rm rd rs1) rm s fun mode => retireS rd (fromInteger binary32 mode (readX 32 s rs1).toNat) s

/-- FCVT.S.L (R346) -/
def execFcvtSL (rm : BitVec 3) (rd : FReg) (rs1 : XReg) (s : State) : Result :=
  when64 (.fcvtSL rm rd rs1) s <|
    withMode (.fcvtSL rm rd rs1) rm s fun mode => retireS rd (fromInteger binary32 mode (readX 64 s rs1).toInt) s

/-- FCVT.S.LU (R347) -/
def execFcvtSLu (rm : BitVec 3) (rd : FReg) (rs1 : XReg) (s : State) : Result :=
  when64 (.fcvtSLu rm rd rs1) s <|
    withMode (.fcvtSLu rm rd rs1) rm s fun mode => retireS rd (fromInteger binary32 mode (readX 64 s rs1).toNat) s

/-! ### Moves of raw bits -/

/-- FMV.X.S (R333): no check of the box. -/
def execFmvXS (rd : XReg) (rs1 : FReg) (s : State) : Result :=
  retireX rd ((readFLow s rs1).signExtend s.bits) s

/-- FMV.S.X (R335) -/
def execFmvSX (rd : FReg) (rs1 : XReg) (s : State) : Result :=
  retireF rd (box (readX 32 s rs1)) s

end Sys2Proof.Machine
end

