-- ==== Sys2Proof/Machine/Integer.lean ====
section
/-! DEFINITION. The integer computational instructions of `40_rv32i.md` and `41_rv64i.md`: upper
immediates, register-immediate, register-register, and the word forms. They raise nothing and touch no flag. -/

namespace Sys2Proof.Machine

/-- LUI (R163): `x[rd] <- sext_XLEN({imm, 12'b0})`. -/
def execLui (rd : XReg) (imm : BitVec 20) (s : State) : Result :=
  retireX rd (upperImm s imm) s

/-- AUIPC (R164): `x[rd] <- pc + sext_XLEN({imm, 12'b0})`, `pc` the address of the AUIPC itself. -/
def execAuipc (rd : XReg) (imm : BitVec 20) (s : State) : Result :=
  retireX rd (readPc s.bits s + upperImm s imm) s

/-! ### Register-immediate (R181 to R189, R224 to R226) -/

/-- ADDI (R181): the sum wraps modulo `2^XLEN`. -/
def execAddi (rd rs1 : XReg) (imm : BitVec 12) (s : State) : Result :=
  retireX rd (readX s.bits s rs1 + immX s imm) s

/-- SLTI (R182): 1 if less than the immediate, signed. -/
def execSlti (rd rs1 : XReg) (imm : BitVec 12) (s : State) : Result :=
  retireX rd (boolBits s.bits ((readX s.bits s rs1).slt (immX s imm))) s

/-- SLTIU (R183): the immediate is sign-extended, then compared as unsigned. -/
def execSltiu (rd rs1 : XReg) (imm : BitVec 12) (s : State) : Result :=
  retireX rd (boolBits s.bits ((readX s.bits s rs1).ult (immX s imm))) s

/-- XORI (R184) -/
def execXori (rd rs1 : XReg) (imm : BitVec 12) (s : State) : Result :=
  retireX rd (readX s.bits s rs1 ^^^ immX s imm) s

/-- ORI (R185) -/
def execOri (rd rs1 : XReg) (imm : BitVec 12) (s : State) : Result :=
  retireX rd (readX s.bits s rs1 ||| immX s imm) s

/-- ANDI (R186) -/
def execAndi (rd rs1 : XReg) (imm : BitVec 12) (s : State) : Result :=
  retireX rd (readX s.bits s rs1 &&& immX s imm) s

/-- SLLI (`XLEN = 32` row) (R187): shift left by 0 to 31. -/
def execSlli32 (rd rs1 : XReg) (shamt : BitVec 5) (s : State) : Result :=
  retireX rd (readX s.bits s rs1 <<< shamt.toNat) s

/-- SRLI (`XLEN = 32` row) (R188): shift right by 0 to 31, zeros entering. -/
def execSrli32 (rd rs1 : XReg) (shamt : BitVec 5) (s : State) : Result :=
  retireX rd (readX s.bits s rs1 >>> shamt.toNat) s

/-- SRAI (`XLEN = 32` row) (R189): shift right by 0 to 31, copies of the sign entering. -/
def execSrai32 (rd rs1 : XReg) (shamt : BitVec 5) (s : State) : Result :=
  retireX rd ((readX s.bits s rs1).sshiftRight shamt.toNat) s

/-- SLLI (`XLEN = 64` row) (R224): shift left by 0 to 63. -/
def execSlli64 (rd rs1 : XReg) (shamt : BitVec 6) (s : State) : Result :=
  when64 (.slli64 rd rs1 shamt) s (retireX rd (readX 64 s rs1 <<< shamt.toNat) s)

/-- SRLI (`XLEN = 64` row) (R225): shift right by 0 to 63, zeros entering. -/
def execSrli64 (rd rs1 : XReg) (shamt : BitVec 6) (s : State) : Result :=
  when64 (.srli64 rd rs1 shamt) s (retireX rd (readX 64 s rs1 >>> shamt.toNat) s)

/-- SRAI (`XLEN = 64` row) (R226): shift right by 0 to 63, copies of bit 63 entering. -/
def execSrai64 (rd rs1 : XReg) (shamt : BitVec 6) (s : State) : Result :=
  when64 (.srai64 rd rs1 shamt) s (retireX rd ((readX 64 s rs1).sshiftRight shamt.toNat) s)

/-! ### Register-register (R190 to R199): the sources are read before `rd` is written -/

/-- ADD (R190): the sum wraps modulo `2^XLEN`. -/
def execAdd (rd rs1 rs2 : XReg) (s : State) : Result :=
  retireX rd (readX s.bits s rs1 + readX s.bits s rs2) s

/-- SUB (R191): the difference wraps modulo `2^XLEN`. -/
def execSub (rd rs1 rs2 : XReg) (s : State) : Result :=
  retireX rd (readX s.bits s rs1 - readX s.bits s rs2) s

/-- SLL (R192): the upper bits of `x[rs2]` are ignored. -/
def execSll (rd rs1 rs2 : XReg) (s : State) : Result :=
  retireX rd (readX s.bits s rs1 <<< shiftAmount s rs2) s

/-- SLT (R193): signed comparison. -/
def execSlt (rd rs1 rs2 : XReg) (s : State) : Result :=
  retireX rd (boolBits s.bits ((readX s.bits s rs1).slt (readX s.bits s rs2))) s

/-- SLTU (R194): unsigned comparison. -/
def execSltu (rd rs1 rs2 : XReg) (s : State) : Result :=
  retireX rd (boolBits s.bits ((readX s.bits s rs1).ult (readX s.bits s rs2))) s

/-- XOR (R195) -/
def execXor (rd rs1 rs2 : XReg) (s : State) : Result :=
  retireX rd (readX s.bits s rs1 ^^^ readX s.bits s rs2) s

/-- SRL (R196): zeros enter. -/
def execSrl (rd rs1 rs2 : XReg) (s : State) : Result :=
  retireX rd (readX s.bits s rs1 >>> shiftAmount s rs2) s

/-- SRA (R197): copies of bit `XLEN - 1` enter. -/
def execSra (rd rs1 rs2 : XReg) (s : State) : Result :=
  retireX rd ((readX s.bits s rs1).sshiftRight (shiftAmount s rs2)) s

/-- OR (R198) -/
def execOr (rd rs1 rs2 : XReg) (s : State) : Result :=
  retireX rd (readX s.bits s rs1 ||| readX s.bits s rs2) s

/-- AND (R199) -/
def execAnd (rd rs1 rs2 : XReg) (s : State) : Result :=
  retireX rd (readX s.bits s rs1 &&& readX s.bits s rs2) s

/-! ### Word instructions of RV64I (R220, R227 to R235): bits 31:0 of the sources, `sext_64` of a 32-bit result -/

/-- Complete with `sext_64` of a 32-bit result, when `XLEN = 64` (R220). -/
def retireWord (i : Instr) (rd : XReg) (v : BitVec 32) (s : State) : Result :=
  when64 i s (retireX rd (v.signExtend 64) s)

/-- ADDIW (R227): the 32-bit sum wraps. -/
def execAddiw (rd rs1 : XReg) (imm : BitVec 12) (s : State) : Result :=
  retireWord (.addiw rd rs1 imm) rd (readX 32 s rs1 + imm.signExtend 32) s

/-- SLLIW (R228) -/
def execSlliw (rd rs1 : XReg) (shamt : BitVec 5) (s : State) : Result :=
  retireWord (.slliw rd rs1 shamt) rd (readX 32 s rs1 <<< shamt.toNat) s

/-- SRLIW (R229): a 32-bit logical shift. -/
def execSrliw (rd rs1 : XReg) (shamt : BitVec 5) (s : State) : Result :=
  retireWord (.srliw rd rs1 shamt) rd (readX 32 s rs1 >>> shamt.toNat) s

/-- SRAIW (R230): a 32-bit arithmetic shift; the sign is bit 31. -/
def execSraiw (rd rs1 : XReg) (shamt : BitVec 5) (s : State) : Result :=
  retireWord (.sraiw rd rs1 shamt) rd ((readX 32 s rs1).sshiftRight shamt.toNat) s

/-- ADDW (R231): the 32-bit sum wraps. -/
def execAddw (rd rs1 rs2 : XReg) (s : State) : Result :=
  retireWord (.addw rd rs1 rs2) rd (readX 32 s rs1 + readX 32 s rs2) s

/-- SUBW (R232): the 32-bit difference wraps. -/
def execSubw (rd rs1 rs2 : XReg) (s : State) : Result :=
  retireWord (.subw rd rs1 rs2) rd (readX 32 s rs1 - readX 32 s rs2) s

/-- SLLW (R233): by `x[rs2][4:0]`. -/
def execSllw (rd rs1 rs2 : XReg) (s : State) : Result :=
  retireWord (.sllw rd rs1 rs2) rd (readX 32 s rs1 <<< (readX 5 s rs2).toNat) s

/-- SRLW (R234): by `x[rs2][4:0]`. -/
def execSrlw (rd rs1 rs2 : XReg) (s : State) : Result :=
  retireWord (.srlw rd rs1 rs2) rd (readX 32 s rs1 >>> (readX 5 s rs2).toNat) s

/-- SRAW (R235): by `x[rs2][4:0]`; the sign is bit 31. -/
def execSraw (rd rs1 rs2 : XReg) (s : State) : Result :=
  retireWord (.sraw rd rs1 rs2) rd ((readX 32 s rs1).sshiftRight (readX 5 s rs2).toNat) s

end Sys2Proof.Machine
end

