-- ==== Sys2Proof/Machine/LoadStore.lean ====
section
/-! DEFINITION. Loads and stores of `40_rv32i.md`, `41_rv64i.md`, `44_f_single.md` and
`45_d_double.md`. -/

namespace Sys2Proof.Machine

/-! ### Loads (R162, R173 to R177, R221, R222): checks, read, extension, `rd` -/

/-- A load of `n` bytes, sign-extended to `XLEN`. -/
def loadSigned (n : Nat) (rd rs1 : XReg) (imm : BitVec 12) (s : State) : Result :=
  load s (effAddr s rs1 imm) n fun v => retireX rd (v.signExtend s.bits) s

/-- A load of `n` bytes, zero-extended to `XLEN`. -/
def loadUnsigned (n : Nat) (rd rs1 : XReg) (imm : BitVec 12) (s : State) : Result :=
  load s (effAddr s rs1 imm) n fun v => retireX rd (v.setWidth s.bits) s

/-- LB (R173): never misaligned. -/
def execLb (rd rs1 : XReg) (imm : BitVec 12) (s : State) : Result :=
  loadSigned 1 rd rs1 imm s

/-- LH (R174) -/
def execLh (rd rs1 : XReg) (imm : BitVec 12) (s : State) : Result :=
  loadSigned 2 rd rs1 imm s

/-- LW (R175): sign-extended when `XLEN = 64`. -/
def execLw (rd rs1 : XReg) (imm : BitVec 12) (s : State) : Result :=
  loadSigned 4 rd rs1 imm s

/-- LBU (R176) -/
def execLbu (rd rs1 : XReg) (imm : BitVec 12) (s : State) : Result :=
  loadUnsigned 1 rd rs1 imm s

/-- LHU (R177) -/
def execLhu (rd rs1 : XReg) (imm : BitVec 12) (s : State) : Result :=
  loadUnsigned 2 rd rs1 imm s

/-- LWU (R221) -/
def execLwu (rd rs1 : XReg) (imm : BitVec 12) (s : State) : Result :=
  when64 (.lwu rd rs1 imm) s (loadUnsigned 4 rd rs1 imm s)

/-- LD (R222) -/
def execLd (rd rs1 : XReg) (imm : BitVec 12) (s : State) : Result :=
  when64 (.ld rd rs1 imm) s (loadSigned 8 rd rs1 imm s)

/-! ### Stores (R162, R178 to R180, R223): the low bytes of `x[rs2]` -/

/-- A store of the `n` low bytes of `x[rs2]`. -/
def storeX (n : Nat) (rs1 rs2 : XReg) (imm : BitVec 12) (s : State) : Result :=
  store s (effAddr s rs1 imm) n (readX (8 * n) s rs2)

/-- SB (R178): never misaligned. -/
def execSb (rs1 rs2 : XReg) (imm : BitVec 12) (s : State) : Result :=
  storeX 1 rs1 rs2 imm s

/-- SH (R179) -/
def execSh (rs1 rs2 : XReg) (imm : BitVec 12) (s : State) : Result :=
  storeX 2 rs1 rs2 imm s

/-- SW (R180) -/
def execSw (rs1 rs2 : XReg) (imm : BitVec 12) (s : State) : Result :=
  storeX 4 rs1 rs2 imm s

/-- SD (R223) -/
def execSd (rs1 rs2 : XReg) (imm : BitVec 12) (s : State) : Result :=
  when64 (.sd rs1 rs2 imm) s (storeX 8 rs1 rs2 imm s)

/-! ### Floating-point loads and stores (R310, R311, R372, R373): bits move unchanged, no flag -/

/-- FLW (R310): the word is boxed. -/
def execFlw (rd : FReg) (rs1 : XReg) (imm : BitVec 12) (s : State) : Result :=
  load s (effAddr s rs1 imm) 4 fun v => retireF rd (box v) s

/-- FSW (R311): the low half of `f[rs2]`, whatever the upper half holds. -/
def execFsw (rs1 : XReg) (rs2 : FReg) (imm : BitVec 12) (s : State) : Result :=
  store s (effAddr s rs1 imm) 4 (readFLow s rs2)

/-- FLD (R372): exists when `XLEN = 32` too; checked as one 8-byte access (`60_exceptions.md` R424). -/
def execFld (rd : FReg) (rs1 : XReg) (imm : BitVec 12) (s : State) : Result :=
  load s (effAddr s rs1 imm) 8 fun v => retireF rd v s

/-- FSD (R373): all 64 bits of `f[rs2]`. -/
def execFsd (rs1 : XReg) (rs2 : FReg) (imm : BitVec 12) (s : State) : Result :=
  store s (effAddr s rs1 imm) 8 (readF s rs2)

end Sys2Proof.Machine
end

