-- ==== Sys2Proof/Machine/MulDiv.lean ====
section
/-! DEFINITION. The M extension (`42_m_muldiv.md`). -/

namespace Sys2Proof.Machine

/-! ### The results, at width `w` (R240) -/

/-- The high half of a product: bits `2w-1 : w` of its two's complement (R242 to R244). -/
def highHalf {w : Nat} (p : Int) : BitVec w := BitVec.ofInt w (p / 2 ^ w)

/-- Signed division: all ones for a zero divisor, the dividend on overflow, else truncated (R245). -/
def divSigned {w : Nat} (a b : BitVec w) : BitVec w :=
  if b = 0 then BitVec.allOnes w
  else if a = BitVec.intMin w ∧ b = BitVec.allOnes w then a
  else BitVec.ofInt w (a.toInt.tdiv b.toInt)

/-- Unsigned division: all ones for a zero divisor (R246). -/
def divUnsigned {w : Nat} (a b : BitVec w) : BitVec w :=
  if b = 0 then BitVec.allOnes w else BitVec.ofNat w (a.toNat / b.toNat)

/-- Signed remainder: the dividend for a zero divisor, 0 on overflow, else with the dividend's sign (R247). -/
def remSigned {w : Nat} (a b : BitVec w) : BitVec w :=
  if b = 0 then a
  else if a = BitVec.intMin w ∧ b = BitVec.allOnes w then 0
  else BitVec.ofInt w (a.toInt - b.toInt * a.toInt.tdiv b.toInt)

/-- Unsigned remainder: the dividend for a zero divisor (R248). -/
def remUnsigned {w : Nat} (a b : BitVec w) : BitVec w :=
  if b = 0 then a else BitVec.ofNat w (a.toNat % b.toNat)

/-! ### The instructions (R241 to R253): none raises in any case (R240) -/

/-- MUL (R241): the low half of the product. -/
def execMul (rd rs1 rs2 : XReg) (s : State) : Result :=
  retireX rd (readX s.bits s rs1 * readX s.bits s rs2) s

/-- MULH (R242): signed by signed. -/
def execMulh (rd rs1 rs2 : XReg) (s : State) : Result :=
  retireX rd (highHalf ((readX s.bits s rs1).toInt * (readX s.bits s rs2).toInt) : BitVec s.bits) s

/-- MULHSU (R243): signed `rs1` by unsigned `rs2`. -/
def execMulhsu (rd rs1 rs2 : XReg) (s : State) : Result :=
  retireX rd (highHalf ((readX s.bits s rs1).toInt * ((readX s.bits s rs2).toNat : Int)) : BitVec s.bits) s

/-- MULHU (R244): unsigned by unsigned. -/
def execMulhu (rd rs1 rs2 : XReg) (s : State) : Result :=
  retireX rd (highHalf (((readX s.bits s rs1).toNat : Int) * ((readX s.bits s rs2).toNat : Int)) : BitVec s.bits) s

/-- DIV (R245) -/
def execDiv (rd rs1 rs2 : XReg) (s : State) : Result :=
  retireX rd (divSigned (readX s.bits s rs1) (readX s.bits s rs2)) s

/-- DIVU (R246) -/
def execDivu (rd rs1 rs2 : XReg) (s : State) : Result :=
  retireX rd (divUnsigned (readX s.bits s rs1) (readX s.bits s rs2)) s

/-- REM (R247) -/
def execRem (rd rs1 rs2 : XReg) (s : State) : Result :=
  retireX rd (remSigned (readX s.bits s rs1) (readX s.bits s rs2)) s

/-- REMU (R248) -/
def execRemu (rd rs1 rs2 : XReg) (s : State) : Result :=
  retireX rd (remUnsigned (readX s.bits s rs1) (readX s.bits s rs2)) s

/-- MULW (R249) -/
def execMulw (rd rs1 rs2 : XReg) (s : State) : Result :=
  retireWord (.mulw rd rs1 rs2) rd (readX 32 s rs1 * readX 32 s rs2) s

/-- DIVW (R250): division at width 32. -/
def execDivw (rd rs1 rs2 : XReg) (s : State) : Result :=
  retireWord (.divw rd rs1 rs2) rd (divSigned (readX 32 s rs1) (readX 32 s rs2)) s

/-- DIVUW (R251): the unsigned quotient is sign-extended. -/
def execDivuw (rd rs1 rs2 : XReg) (s : State) : Result :=
  retireWord (.divuw rd rs1 rs2) rd (divUnsigned (readX 32 s rs1) (readX 32 s rs2)) s

/-- REMW (R252): remainder at width 32. -/
def execRemw (rd rs1 rs2 : XReg) (s : State) : Result :=
  retireWord (.remw rd rs1 rs2) rd (remSigned (readX 32 s rs1) (readX 32 s rs2)) s

/-- REMUW (R253): the unsigned remainder is sign-extended. -/
def execRemuw (rd rs1 rs2 : XReg) (s : State) : Result :=
  retireWord (.remuw rd rs1 rs2) rd (remUnsigned (readX 32 s rs1) (readX 32 s rs2)) s

end Sys2Proof.Machine
end

