-- ==== Sys2Proof/Machine/System.lean ====
section
/-! DEFINITION. FENCE, FENCE.I, ECALL, EBREAK (`40_rv32i.md` R200 to R203) and the eight `fcsr`
access instructions (`44_f_single.md` R336 to R343): the system instructions of the one mode (`60_exceptions.md` R440). -/

namespace Sys2Proof.Machine

/-- FENCE (R200): with one hart it only advances `pc` (`20_memory.md` R86, R87; log 1). The I and O bits have no effect
(U15). -/
def execFence (_pred _succ : BitVec 4) (s : State) : Result :=
  retire s

/-- FENCE.I (R201): every later fetch sees all earlier stores of the hart: no byte is stale any more (`20_memory.md` R92). -/
def execFenceI (s : State) : Result :=
  retire (syncFetch s)

/-- ECALL (R202): always raises; nothing is written. -/
def execEcall (s : State) : Result :=
  raise s .environmentCall 0

/-- EBREAK (R203): always raises, with `pc` as the info; there is no debug mode. -/
def execEbreak (s : State) : Result :=
  raise s .breakpoint s.pc

/-! ### Access to `fcsr`, `frm`, `fflags` (`44_f_single.md` R336 to R343): the old value goes to `rd`, zero-extended.
None raises (`10_state.md` R33); reserved values of `frm` can be written (R340). -/

/-- FRCSR (R336) -/
def execFrcsr (rd : XReg) (s : State) : Result :=
  retireX rd (s.fcsr.setWidth s.bits) s

/-- FRRM (R337) -/
def execFrrm (rd : XReg) (s : State) : Result :=
  retireX rd (s.frm.setWidth s.bits) s

/-- FRFLAGS (R338) -/
def execFrflags (rd : XReg) (s : State) : Result :=
  retireX rd (s.fflags.setWidth s.bits) s

/-- FSCSR (R339): bits above 7 of `x[rs1]` are ignored. -/
def execFscsr (rd rs1 : XReg) (s : State) : Result :=
  retireX rd (s.fcsr.setWidth s.bits) (setFcsr (readX 8 s rs1) s)

/-- FSRM (R340): `frm` takes `x[rs1][2:0]`, `fflags` stay. -/
def execFsrm (rd rs1 : XReg) (s : State) : Result :=
  retireX rd (s.frm.setWidth s.bits) (setFrm (readX 3 s rs1) s)

/-- FSFLAGS (R341): `fflags` take `x[rs1][4:0]`, `frm` stays. -/
def execFsflags (rd rs1 : XReg) (s : State) : Result :=
  retireX rd (s.fflags.setWidth s.bits) (setFflags (readX 5 s rs1) s)

/-- FSRMI (R342): `uimm[4:3]` are ignored. -/
def execFsrmi (rd : XReg) (uimm : BitVec 5) (s : State) : Result :=
  retireX rd (s.frm.setWidth s.bits) (setFrm (uimm.setWidth 3) s)

/-- FSFLAGSI (R343) -/
def execFsflagsi (rd : XReg) (uimm : BitVec 5) (s : State) : Result :=
  retireX rd (s.fflags.setWidth s.bits) (setFflags uimm s)

end Sys2Proof.Machine
end

