-- ==== Sys2Proof/Machine/Fetch.lean ====
section
/-! DEFINITION. Fetching an instruction (`20_memory.md` R63, R68, R92), and placing one where the next step fetches. -/

namespace Sys2Proof.Machine

/-- What a fetch answers. -/
inductive FetchResult where
  /-- the instruction word -/
  | word (w : InstWord)
  /-- the trap it raises -/
  | trap (t : Trap)
  /-- the first byte the hart stored to since its last FENCE.I: old or new, unspecified (R92) -/
  | stale (addr : Nat)
deriving DecidableEq, Repr

/-- The addresses of the instruction at `pc`. A `pc` that is not a multiple of 4 is never reached (`10_state.md` R25;
log 10). -/
def fetchAddrs (s : State) : List Nat := accessBytes (readPc s.bits s) 4

/-- `Fetch(pc)`: the validity check, then the stale bytes, then the little-endian word (R68). -/
def fetch (s : State) : FetchResult :=
  if s.params.memValid .fetch (readPc s.bits s).toNat 4 then
    match (fetchAddrs s).find? (s.stale.contains ·) with
    | some a => .stale a
    | none => .word (s.mem.readLE (readPc s.bits s) 4)
  else .trap ⟨.instructionAccessFault, s.pc⟩

/-- The state with the bytes of an instruction at `pc`, coherent with the fetch, and the hart running (log 11). -/
def placeAtPc (bytes : List Byte) (s : State) : State :=
  { s with
    mem := s.mem.writeBytes (fetchAddrs s) bytes
    stale := s.stale.filter (!(fetchAddrs s).contains ·)
    run := .running }

end Sys2Proof.Machine
end

