-- ==== Sys2Proof/Machine/RetryLoop.lean ====
section
/-! DEFINITION. Constrained LR/SC loops (`43_a_atomics.md` R263): the record that `step` keeps, beside what the
instruction itself does, of the tries a hart has made of one LR/SC sequence. The oracle of SC reads it
(`firstDraw`), so that it cannot fail every SC of such a loop (log 7). -/

namespace Sys2Proof.Machine

/-- R263 allows the instruction between the LR and the SC: a base integer instruction other than a load, a store, a
backward jump, JALR, FENCE, FENCE.I, ECALL or EBREAK. A backward branch is allowed as long as it is not taken
(`loopAfter`). -/
def allowedBetween : Instr → Bool
  | .lui .. => true
  | .auipc .. => true
  | .jal _ off => 0 < off.toInt
  | .beq .. => true
  | .bne .. => true
  | .blt .. => true
  | .bge .. => true
  | .bltu .. => true
  | .bgeu .. => true
  | .addi .. => true
  | .slti .. => true
  | .sltiu .. => true
  | .xori .. => true
  | .ori .. => true
  | .andi .. => true
  | .slli32 .. => true
  | .srli32 .. => true
  | .srai32 .. => true
  | .slli64 .. => true
  | .srli64 .. => true
  | .srai64 .. => true
  | .add .. => true
  | .sub .. => true
  | .sll .. => true
  | .slt .. => true
  | .sltu .. => true
  | .xor .. => true
  | .srl .. => true
  | .sra .. => true
  | .or .. => true
  | .and .. => true
  | .addiw .. => true
  | .slliw .. => true
  | .srliw .. => true
  | .sraiw .. => true
  | .addw .. => true
  | .subw .. => true
  | .sllw .. => true
  | .srlw .. => true
  | .sraw .. => true
  | _ => false

/-- A conditional branch. -/
def isBranch : Instr → Bool
  | .beq .. => true
  | .bne .. => true
  | .blt .. => true
  | .bge .. => true
  | .bltu .. => true
  | .bgeu .. => true
  | _ => false

/-- The address and the width of an LR. -/
def lrAccess (s : State) : Instr → Option (Nat × Nat)
  | .lrW _ _ _ rs1 => some ((readX s.bits s rs1).toNat, 4)
  | .lrD _ _ _ rs1 => some ((readX s.bits s rs1).toNat, 8)
  | _ => none

/-- The address and the width of an SC. -/
def scAccess (s : State) : Instr → Option (Nat × Nat)
  | .scW _ _ _ rs1 _ => some ((readX s.bits s rs1).toNat, 4)
  | .scD _ _ _ rs1 _ => some ((readX s.bits s rs1).toNat, 8)
  | _ => none

/-- How far `pc` lies after `start`, in bytes modulo `2^XLEN`. -/
def loopOffset (start : Word) (s : State) : Nat := (readPc s.bits s - start.setWidth s.bits).toNat

/-- The word at `addr` decodes to an instruction that R263 allows between LR and SC. -/
def allowedAt {w : Nat} (s : State) (addr : BitVec w) : Bool :=
  match decodeWord s.params.xlen (s.mem.readLE addr 4) with
  | .ok i => allowedBetween i
  | .error _ => false

/-- With the LR at `start` and the SC at `pc`, the sequence is at most 16 instructions long, and R263 allows every one
between the two. -/
def sequenceAllowed (start : Word) (s : State) : Bool :=
  loopOffset start s ≤ 60 &&
    (List.range (loopOffset start s / 4 - 1)).all fun k =>
      allowedAt s (start.setWidth s.bits + 4 + BitVec.ofNat s.bits (4 * k))

/-- The record after an LR at `pc`: a further try where the branch of a failed one has come back to it, else the first
try. -/
def loopAtLr (s : State) (addr n : Nat) : RetryLoop where
  start := s.pc
  first :=
    match s.retryLoop with
    | some l => if l.phase = .retrying ∧ l.start = s.pc then l.first else s.scDraws
    | none => s.scDraws
  phase := .between addr n

/-- The record after an instruction `i` that is no LR took `s` to `t`, when it was `l`: kept between LR and SC while the
hart runs forward through instructions that R263 allows, kept when the SC of the same address and width fails at the
end of an allowed sequence, kept when a branch then goes back to the LR; else gone. -/
def loopAfter (i : Instr) (s t : State) (l : RetryLoop) : Option RetryLoop :=
  match l.phase with
  | .between addr n =>
    if allowedBetween i && loopOffset l.start s < loopOffset l.start t then some l
    else if scAccess s i = some (addr, n) && !scSucceeds s addr n && sequenceAllowed l.start s then
      some { l with phase := .retrying }
    else none
  | .retrying => if isBranch i && t.pc == l.start then some l else none

/-- The record after `i` took `s` to `t` (R263; log 7). -/
def nextLoop (i : Instr) (s t : State) : Option RetryLoop :=
  match lrAccess s i with
  | some a => some (loopAtLr s a.1 a.2)
  | none => s.retryLoop.bind (loopAfter i s t)

/-- The state with another record. -/
def setLoop (l : Option RetryLoop) (s : State) : State := { s with retryLoop := l }

/-- What an instruction answered, with the record brought up to date; a trap writes nothing (`60_exceptions.md`
R424). -/
def followLoop (i : Instr) (s : State) : Result → Result
  | .next t =>
    match t.run with
    | .running => .next (setLoop (nextLoop i s t) t)
    | .stopped _ => .next t
  | .fault f => .fault f
  | .refused r => .refused r

end Sys2Proof.Machine
end

