-- ==== Sys2Proof/Machine/Step.lean ====
section
/-! DEFINITION. One step of the hart (`00_scope.md` R11), and the state whose next step runs a given instruction. -/

namespace Sys2Proof.Machine

/-- One step (R11): fetch, which may raise; decode, a reserved word raising `IllegalInstruction(w)` (R131); execute,
keeping the record of the LR/SC loop the hart is in (`43_a_atomics.md` R263; log 7). A stopped hart never steps
(`60_exceptions.md` R446); the fetch of a stale byte is refused (R92, U6). -/
def step (s : State) : Host.Outcome State Fault Refusal :=
  match s.run with
  | .stopped t => .fault (.hartStopped t)
  | .running =>
    match fetch s with
    | .trap t => .next (takeTrap t s)
    | .stale a => .refused (.staleFetch a)
    | .word w =>
      match decodeWord s.params.xlen w with
      | .ok i => followLoop i s (exec i s)
      | .error _ => raise s .illegalInstruction (w.setWidth 64)

/-- `s` with the instruction whose bits are `w`, numbered as `opcode_table.json` numbers them, in memory at `pc`,
coherent with the fetch, the hart running: the very next step runs it (log 11). -/
def State.withFetchWord (s : State) (nbits w : Nat) : State := placeAtPc (tableBytes nbits w) s

end Sys2Proof.Machine
end

