-- ==== Sys2Proof/Safety.lean ====
section
/-! DEFINITION. The terms the claims use: safe ends, the invariant of the machine, and frames, each of which says what
an instruction writes and that everything else stays. Registers are observed through `readX` and `readF`, memory byte
by byte through `Memory.read`. -/

namespace Sys2Proof.Machine

/-- A trap that ends a run normally: ECALL or EBREAK (`60_exceptions.md` R446, D27). Any other is a fault. -/
def Trap.isNormalEnd (t : Trap) : Bool := t.cause == .environmentCall || t.cause == .breakpoint

/-- A state of a safe run: the hart runs, or it has ended normally. -/
def State.Safe (s : State) : Prop := ∀ t, s.run = .stopped t → t.isNormalEnd = true

/-- `x0` (`10_state.md` R21). -/
def x0 : XReg := ⟨0⟩

/-! ### The invariant -/

/-- What every step keeps: the parameters are legal, `pc` is a multiple of 4 (R25) and fits `XLEN` bits, `x0` holds
zero and every register fits, memory keeps its canonical form inside the address space, the stale addresses are a set
of addresses, and a reservation is a naturally aligned set of `RES_GRAIN` bytes (R34). -/
structure Inv (s : State) : Prop where
  params_wf : s.params.wf = true
  pc_fits : s.pc.toNat < 2 ^ s.bits
  pc_aligned : s.pc.toNat % 4 = 0
  x0_zero : s.xs[0] = 0
  xs_fit : ∀ (i : Nat) (h : i < 32), s.xs[i].toNat < 2 ^ s.bits
  mem_wf : s.mem.wf = true
  mem_below : ∀ c ∈ s.mem, c.1 < 2 ^ s.bits
  stale_sorted : addrSorted s.stale = true
  stale_below : ∀ a ∈ s.stale, a < 2 ^ s.bits
  reservation_aligned : ∀ r, s.reservation = some r →
    r.size = s.params.resGrain ∧ r.base % r.size = 0 ∧ r.base + r.size ≤ 2 ^ s.bits

/-! ### Frames: what is written -/

/-- `x[rd]` holds `v`, zero-extended to the carried width, unless `rd` is `x0`; every other register, and `x0`, is as
before (R21). -/
def WritesX {w : Nat} (rd : XReg) (v : BitVec w) (s t : State) : Prop :=
  ∀ r : XReg, readX 64 t r = if r = rd ∧ rd ≠ x0 then v.setWidth 64 else readX 64 s r

/-- `f[rd]` holds `v`; every other register is as before. -/
def WritesF (rd : FReg) (v : Word) (s t : State) : Prop :=
  ∀ r : FReg, readF t r = if r = rd then v else readF s r

/-- The flags are ORed into `fflags`; `frm` is as before (R32). -/
def AccruesFlags (f : Flags) (s t : State) : Prop := t.fflags = s.fflags ||| f.bits ∧ t.frm = s.frm

/-- The `n` bytes from `addr` hold `v`, byte `k` in bits `8k+7 : 8k` (R62); every other byte of memory is as before. -/
def WritesMem {w : Nat} (addr : BitVec w) (n : Nat) (v : BitVec (8 * n)) (s t : State) : Prop :=
  (∀ k, k < n → t.mem.read (addr + BitVec.ofNat w k).toNat = v.extractLsb' (8 * k) 8) ∧
    ∀ a, a ∉ accessBytes addr n → t.mem.read a = s.mem.read a

/-- The stale addresses are those of before and the `n` from `addr` (R92). -/
def MarksStale {w : Nat} (addr : BitVec w) (n : Nat) (s t : State) : Prop :=
  ∀ a, a ∈ t.stale ↔ a ∈ s.stale ∨ a ∈ accessBytes addr n

/-- `pc` is `pc + 4` modulo `2^XLEN` (R24). -/
def PcAdvances (s t : State) : Prop := t.pc = (readPc s.bits s + 4).setWidth 64

/-! ### Frames: what stays -/

/-- Every integer register is as before. -/
def KeepsX (s t : State) : Prop := ∀ r : XReg, readX 64 t r = readX 64 s r
/-- Every floating-point register is as before. -/
def KeepsF (s t : State) : Prop := ∀ r : FReg, readF t r = readF s r
/-- Every byte of memory is as before. -/
def KeepsMem (s t : State) : Prop := ∀ a, t.mem.read a = s.mem.read a
/-- The parameters are as before and the hart has not stopped or been resumed. -/
def KeepsRun (s t : State) : Prop := t.params = s.params ∧ t.run = s.run
/-- The model's own fields, the count of oracle draws and the record of the LR/SC loop, are as before (log 7). -/
def KeepsOracle (s t : State) : Prop := t.scDraws = s.scDraws ∧ t.retryLoop = s.retryLoop
/-- The reservation, the stale addresses and the model's own fields are as before. -/
def KeepsHidden (s t : State) : Prop := t.reservation = s.reservation ∧ t.stale = s.stale ∧ KeepsOracle s t

/-! ### Whole frames of the shapes instructions come in -/

/-- Only `pc` moves. -/
def OnlyAdvances (s t : State) : Prop :=
  KeepsX s t ∧ KeepsF s t ∧ t.fcsr = s.fcsr ∧ KeepsMem s t ∧ KeepsHidden s t ∧ KeepsRun s t ∧ PcAdvances s t

/-- `x[rd] <- v` and `pc` moves; nothing else changes. -/
def ResultX {w : Nat} (rd : XReg) (v : BitVec w) (s t : State) : Prop :=
  WritesX rd v s t ∧ KeepsF s t ∧ t.fcsr = s.fcsr ∧ KeepsMem s t ∧ KeepsHidden s t ∧ KeepsRun s t ∧ PcAdvances s t

/-- `f[rd] <- v` and `pc` moves; nothing else changes. -/
def ResultF (rd : FReg) (v : Word) (s t : State) : Prop :=
  WritesF rd v s t ∧ KeepsX s t ∧ t.fcsr = s.fcsr ∧ KeepsMem s t ∧ KeepsHidden s t ∧ KeepsRun s t ∧ PcAdvances s t

/-- `x[rd] <- v`, the flags accrue and `pc` moves; nothing else changes. -/
def ResultXFlags {w : Nat} (rd : XReg) (v : BitVec w) (f : Flags) (s t : State) : Prop :=
  WritesX rd v s t ∧ AccruesFlags f s t ∧ KeepsF s t ∧ KeepsMem s t ∧ KeepsHidden s t ∧ KeepsRun s t ∧ PcAdvances s t

/-- `f[rd] <- v`, the flags accrue and `pc` moves; nothing else changes. -/
def ResultFFlags (rd : FReg) (v : Word) (f : Flags) (s t : State) : Prop :=
  WritesF rd v s t ∧ AccruesFlags f s t ∧ KeepsX s t ∧ KeepsMem s t ∧ KeepsHidden s t ∧ KeepsRun s t ∧ PcAdvances s t

/-- `x[rd] <- v` and `pc <- target`; nothing else changes. -/
def Jumps {w : Nat} (rd : XReg) (v target : BitVec w) (s t : State) : Prop :=
  WritesX rd v s t ∧ KeepsF s t ∧ t.fcsr = s.fcsr ∧ KeepsMem s t ∧ KeepsHidden s t ∧ KeepsRun s t ∧
    t.pc = target.setWidth 64

/-- The `n` bytes from `addr` take `v` and `pc` moves; no register, flag or reservation changes. -/
def StoresOnly {w : Nat} (addr : BitVec w) (n : Nat) (v : BitVec (8 * n)) (s t : State) : Prop :=
  WritesMem addr n v s t ∧ MarksStale addr n s t ∧ KeepsX s t ∧ KeepsF s t ∧ t.fcsr = s.fcsr ∧
    t.reservation = s.reservation ∧ KeepsOracle s t ∧ KeepsRun s t ∧ PcAdvances s t

/-- The state is as before but for the trap it has stopped on: nothing is written and `pc` stays (R424). -/
def TrapsWith (cause : Cause) (info : Word) (s t : State) : Prop := t = { s with run := .stopped ⟨cause, info⟩ }

/-- `pc <- target`; nothing else changes. -/
def GoesTo {w : Nat} (target : BitVec w) (s t : State) : Prop :=
  KeepsX s t ∧ KeepsF s t ∧ t.fcsr = s.fcsr ∧ KeepsMem s t ∧ KeepsHidden s t ∧ KeepsRun s t ∧ t.pc = target.setWidth 64

/-- `x[rd] <- old`, `fcsr <- new` and `pc` moves; nothing else changes. -/
def SwapsFcsr {w : Nat} (rd : XReg) (old : BitVec w) (new : BitVec 8) (s t : State) : Prop :=
  WritesX rd old s t ∧ t.fcsr = new ∧ KeepsF s t ∧ KeepsMem s t ∧ KeepsHidden s t ∧ KeepsRun s t ∧ PcAdvances s t

/-- No byte is stale any more and `pc` moves; nothing else changes (`40_rv32i.md` R201). -/
def SyncsFetch (s t : State) : Prop :=
  t.stale = [] ∧ KeepsX s t ∧ KeepsF s t ∧ t.fcsr = s.fcsr ∧ KeepsMem s t ∧ t.reservation = s.reservation ∧
    KeepsOracle s t ∧ KeepsRun s t ∧ PcAdvances s t

/-- `x[rd] <- v`, the reservation is the aligned set of `RES_GRAIN` bytes that contains the `n` from `addr`, and `pc`
moves; nothing else changes (`43_a_atomics.md` R261 (a)). -/
def Reserves {w v : Nat} (rd : XReg) (value : BitVec v) (addr : BitVec w) (n : Nat) (s t : State) : Prop :=
  WritesX rd value s t ∧
    (∃ r, t.reservation = some r ∧ r.size = s.params.resGrain ∧ r.base % r.size = 0 ∧ r.base ≤ addr.toNat ∧
      addr.toNat + n ≤ r.base + r.size) ∧
    KeepsF s t ∧ t.fcsr = s.fcsr ∧ KeepsMem s t ∧ t.stale = s.stale ∧ KeepsOracle s t ∧ KeepsRun s t ∧
    PcAdvances s t

/-- The `n` bytes from `addr` lie in the hart's reservation set (R262 (b), (c)). -/
def HoldsReservation {w : Nat} (s : State) (addr : BitVec w) (n : Nat) : Prop :=
  ∃ r, s.reservation = some r ∧ r.base ≤ addr.toNat ∧ addr.toNat + n ≤ r.base + r.size

/-- An SC that succeeded: 0 in `x[rd]`, the bytes written, the reservation gone (R262). -/
def ScWrites {w : Nat} (rd : XReg) (addr : BitVec w) (n : Nat) (v : BitVec (8 * n)) (s t : State) : Prop :=
  WritesX rd (0 : BitVec s.bits) s t ∧ WritesMem addr n v s t ∧ MarksStale addr n s t ∧ t.reservation = none ∧
    KeepsF s t ∧ t.fcsr = s.fcsr ∧ t.retryLoop = s.retryLoop ∧ KeepsRun s t ∧ PcAdvances s t

/-- An SC that failed: 1 in `x[rd]`, nothing written, the reservation gone (R262). -/
def ScFails (rd : XReg) (s t : State) : Prop :=
  WritesX rd (1 : BitVec s.bits) s t ∧ KeepsMem s t ∧ t.stale = s.stale ∧ t.reservation = none ∧ KeepsF s t ∧
    t.fcsr = s.fcsr ∧ t.retryLoop = s.retryLoop ∧ KeepsRun s t ∧ PcAdvances s t

/-- An AMO: the old value, sign-extended, in `x[rd]`, the new one in the `n` bytes from `addr`; the reservation stays
(`43_a_atomics.md` R261 (d), R266). -/
def AmoUpdates {w : Nat} (rd : XReg) (addr : BitVec w) (n : Nat) (old new : BitVec (8 * n)) (s t : State) : Prop :=
  WritesX rd (BitVec.ofInt s.bits old.toInt) s t ∧ WritesMem addr n new s t ∧ MarksStale addr n s t ∧ KeepsF s t ∧
    t.fcsr = s.fcsr ∧ t.reservation = s.reservation ∧ KeepsOracle s t ∧ KeepsRun s t ∧ PcAdvances s t

/-! ### What an instruction answers -/

/-- `exec` answers a next state, which stands in the relation `P` to the state before. -/
def Answers (i : Instr) (s : State) (P : State → State → Prop) : Prop := ∃ t, exec i s = .next t ∧ P s t

/-- A conditional branch with condition `cond`: not taken, it falls through; taken, it goes to `pc + off`, or raises if
that is not a multiple of 4 (`40_rv32i.md` R161). -/
def BranchesIf (i : Instr) (cond : Prop) (off : BitVec 13) (s : State) : Prop :=
  let target := BitVec.ofInt s.bits ((readPc s.bits s).toNat + off.toInt)
  (¬ cond → Answers i s OnlyAdvances) ∧
    (cond → target.toNat % 4 = 0 → Answers i s (GoesTo target)) ∧
    (cond → target.toNat % 4 ≠ 0 → Answers i s (TrapsWith .instructionAddressMisaligned (target.setWidth 64)))

/-- The access of `n` bytes at `addr` is naturally aligned and `mem_valid` for each kind it needs (`20_memory.md` R64
to R66). -/
def AccessOk {w : Nat} (s : State) (kinds : List AccessKind) (addr : BitVec w) (n : Nat) : Prop :=
  addr.toNat % n = 0 ∧ ∀ kind ∈ kinds, s.params.memValid kind addr.toNat n = true

/-- The traps of such an access: misaligned first, whatever `mem_valid` says, then refused (R66, D24); the info is the
address (`60_exceptions.md` R421). -/
def AccessRaises {w : Nat} (i : Instr) (s : State) (misaligned refused : Cause) (kinds : List AccessKind)
    (addr : BitVec w) (n : Nat) : Prop :=
  (addr.toNat % n ≠ 0 → Answers i s (TrapsWith misaligned (addr.setWidth 64))) ∧
    (addr.toNat % n = 0 → (∃ kind ∈ kinds, s.params.memValid kind addr.toNat n = false) →
      Answers i s (TrapsWith refused (addr.setWidth 64)))

/-- An SC of `n` bytes: it must fail without a reservation that holds them; it succeeds with one where the parameter
rules spurious failure out; else the oracle decides: it succeeds once its row, the tries of the LR/SC loop the hart is
in or this try alone, has had the failures that the free value gives it (R262, R263; log 7). -/
def ScOutcome {w : Nat} (i : Instr) (rd : XReg) (addr : BitVec w) (n : Nat) (v : BitVec (8 * n)) (s : State) : Prop :=
  (¬ HoldsReservation s addr n → Answers i s fun s t => ScFails rd s t ∧ t.scDraws = s.scDraws) ∧
    (HoldsReservation s addr n → s.params.scMayFailSpuriously = false →
      Answers i s fun s t => ScWrites rd addr n v s t ∧ t.scDraws = s.scDraws) ∧
    (HoldsReservation s addr n → s.params.scMayFailSpuriously = true →
      Answers i s fun s t =>
        (if firstDraw s + Config.scFailures (firstDraw s) ≤ s.scDraws then ScWrites rd addr n v s t
          else ScFails rd s t) ∧
        t.scDraws = s.scDraws + 1)

/-- `q` and `r` are the quotient of `x` by `y` rounded toward zero and its remainder, which has the sign of `x`
(`42_m_muldiv.md` R240). -/
def QuotRem (x y q r : Int) : Prop := x = y * q + r ∧ r.natAbs < y.natAbs ∧ (0 < x → 0 ≤ r) ∧ (x < 0 → r ≤ 0)

/-! ### Values read from memory, byte by byte -/

/-- The byte at `addr + k`. -/
def byteAt {w : Nat} (s : State) (addr : BitVec w) (k : Nat) : Byte := s.mem.read (addr + BitVec.ofNat w k).toNat
/-- The little-endian halfword at `addr` (R62). -/
def halfAt {w : Nat} (s : State) (addr : BitVec w) : BitVec 16 := byteAt s addr 1 ++ byteAt s addr 0
/-- The little-endian word at `addr`. -/
def wordAt {w : Nat} (s : State) (addr : BitVec w) : BitVec 32 :=
  byteAt s addr 3 ++ byteAt s addr 2 ++ byteAt s addr 1 ++ byteAt s addr 0
/-- The little-endian doubleword at `addr`. -/
def doubleAt {w : Nat} (s : State) (addr : BitVec w) : BitVec 64 :=
  byteAt s addr 7 ++ byteAt s addr 6 ++ byteAt s addr 5 ++ byteAt s addr 4 ++ byteAt s addr 3 ++ byteAt s addr 2 ++
    byteAt s addr 1 ++ byteAt s addr 0

/-! ### Reserved words -/

/-- The word has an opcode in use with a funct3, funct7, funct5 or format field that no row of it has, for either `XLEN`
(`30_encoding.md` R126, R131). -/
def unusedFunct (w : InstWord) : Bool :=
  let opcode := (field w 0 7).toNat
  let funct3 := (field w 12 3).toNat
  let funct7 := (field w 25 7).toNat
  let funct5 := (field w 27 5).toNat
  let fmt := (field w 25 2).toNat
  (opcode == 0x67 && funct3 != 0) ||
  (opcode == 0x63 && (funct3 == 2 || funct3 == 3)) ||
  (opcode == 0x03 && funct3 == 7) ||
  (opcode == 0x23 && 4 ≤ funct3) ||
  (opcode == 0x0F && 2 ≤ funct3) ||
  ((opcode == 0x07 || opcode == 0x27) && funct3 != 2 && funct3 != 3) ||
  (opcode == 0x13 && ((funct3 == 1 && funct7 / 2 != 0) || (funct3 == 5 && funct7 / 2 != 0 && funct7 / 2 != 0x10))) ||
  (opcode == 0x1B && (!([0, 1, 5].contains funct3) || (funct3 == 1 && funct7 != 0) ||
    (funct3 == 5 && funct7 != 0 && funct7 != 0x20))) ||
  (opcode == 0x33 && (!([0, 1, 0x20].contains funct7) || (funct7 == 0x20 && funct3 != 0 && funct3 != 5))) ||
  (opcode == 0x3B && !((funct7 == 0 && [0, 1, 5].contains funct3) || (funct7 == 1 && [0, 4, 5, 6, 7].contains funct3) ||
    (funct7 == 0x20 && [0, 5].contains funct3))) ||
  (opcode == 0x2F && ((funct3 != 2 && funct3 != 3) ||
    !([0x00, 0x01, 0x02, 0x03, 0x04, 0x08, 0x0C, 0x10, 0x14, 0x18, 0x1C].contains funct5))) ||
  ([0x43, 0x47, 0x4B, 0x4F].contains opcode && 2 ≤ fmt) ||
  (opcode == 0x53 && (!([0x00, 0x01, 0x04, 0x05, 0x08, 0x09, 0x0C, 0x0D, 0x10, 0x11, 0x14, 0x15, 0x2C, 0x2D, 0x50, 0x51,
      0x60, 0x61, 0x68, 0x69, 0x70, 0x71, 0x78, 0x79].contains funct7) ||
    ([0x10, 0x11, 0x50, 0x51].contains funct7 && 3 ≤ funct3) ||
    ([0x14, 0x15, 0x70, 0x71].contains funct7 && 2 ≤ funct3) || ([0x78, 0x79].contains funct7 && funct3 != 0)))

/-- The word is in an OP-FP row with a fixed `24:20` pattern, but for another value there: the rows of FSQRT, FMV and
FCLASS have 0, those of the conversions 0 to 3 (R131). -/
def otherFixedRs2 (w : InstWord) : Bool :=
  let funct7 := (field w 25 7).toNat
  let rs2 := (field w 20 5).toNat
  field w 0 7 == 0x53 && (([0x2C, 0x2D, 0x70, 0x71, 0x78, 0x79].contains funct7 && rs2 != 0) ||
    ([0x60, 0x61, 0x68, 0x69].contains funct7 && 4 ≤ rs2))

/-! ### A constrained LR/SC loop (`43_a_atomics.md` R263) -/

/-- The instruction that the word at an address decodes to. -/
def instrAt {w : Nat} (s : State) (addr : BitVec w) : Option Instr :=
  (decodeWord s.params.xlen (wordAt s addr)).toOption

/-- The address of instruction `k` of a sequence placed contiguously from `start`. -/
def sequenceAddr (s : State) (start : Word) (k : Nat) : BitVec s.bits :=
  start.setWidth s.bits + BitVec.ofNat s.bits (4 * k)

/-- `pc` is at instruction `k` of the sequence. -/
def AtInstr (start : Word) (k : Nat) (s : State) : Prop := readPc s.bits s = sequenceAddr s start k

/-- The step from `s` to `t` is one of executing the constrained loop at `start` on the `n` bytes at `addr`: instruction
0 is the LR, instructions 1 to `len` are those R263 allows between LR and SC, instruction `len + 1` is the SC of the
same width to the same address, instruction `len + 2` is the branch, which goes back to the LR; and between LR and SC
the hart runs forward. -/
structure LoopStep (start : Word) (len addr n : Nat) (s t : State) : Prop where
  steps : step s = .next t
  inside : ∃ k ≤ len + 2, AtInstr start k s
  atLr : ∃ i m, instrAt s (sequenceAddr s start 0) = some i ∧ lrAccess s i = some (m, n) ∧
    (AtInstr start 0 s → m = addr)
  between : ∀ k, 1 ≤ k → k ≤ len →
    ∃ i, instrAt s (sequenceAddr s start k) = some i ∧ allowedBetween i = true
  atSc : ∃ i m, instrAt s (sequenceAddr s start (len + 1)) = some i ∧ scAccess s i = some (m, n) ∧
    (AtInstr start (len + 1) s → m = addr)
  atBranch : ∃ i, instrAt s (sequenceAddr s start (len + 2)) = some i ∧ isBranch i = true
  forward : ∀ k, 1 ≤ k → k ≤ len → AtInstr start k s → ∃ k', k < k' ∧ k' ≤ len + 1 ∧ AtInstr start k' t
  retries : AtInstr start (len + 2) s → AtInstr start 0 t

/-- The instruction is an SC, and executed here it succeeds: the bytes are written and `x[rd]` gets 0 (R262). -/
def ScSucceedsHere (i : Instr) (s : State) : Prop :=
  match i with
  | .scW _ _ rd rs1 rs2 => Answers i s (ScWrites rd (readX s.bits s rs1) 4 (readX (8 * 4) s rs2))
  | .scD _ _ rd rs1 rs2 => Answers i s (ScWrites rd (readX s.bits s rs1) 8 (readX (8 * 8) s rs2))
  | _ => False

/-! ### Rounding modes -/

/-- The value of `frm`, or of a static `rm`, that stands for a mode (`10_state.md` R31). -/
def modeCode : RoundingMode → Nat
  | .rne => 0
  | .rtz => 1
  | .rdn => 2
  | .rup => 3
  | .rmm => 4

/-- `mode` is the effective mode of an `rm` field: its own value, or that of `frm` when it is 111
(`44_f_single.md` R301). -/
def EffectiveMode (rm frm : BitVec 3) (mode : RoundingMode) : Prop :=
  rm.toNat = modeCode mode ∨ (rm.toNat = 7 ∧ frm.toNat = modeCode mode)

/-- The mode is reserved: `rm` is 101 or 110, or it is 111 while `frm` is 101, 110 or 111 (R301). -/
def ReservedMode (rm frm : BitVec 3) : Prop :=
  rm.toNat = 5 ∨ rm.toNat = 6 ∨ (rm.toNat = 7 ∧ 5 ≤ frm.toNat)

/-! ### Floating-point values, from the bits (`44_f_single.md` R300, `45_d_double.md` R370)

These say what results should be, over the rationals and the reals and without the model's own arithmetic. -/

/-- The two formats of the machine. -/
def IsFormat (F : FloatFormat) : Prop := F = binary32 ∨ F = binary64

/-- A finite datum: the exponent field is not all ones. -/
def isFinite (F : FloatFormat) (b : BitVec F.width) : Bool := expField F b != 2 ^ F.expBits - 1
/-- An infinity. -/
def isInfinite (F : FloatFormat) (b : BitVec F.width) : Bool := !isFinite F b && fracField F b == 0
/-- A NaN. -/
def isNaN (F : FloatFormat) (b : BitVec F.width) : Bool := !isFinite F b && fracField F b != 0
/-- A signaling NaN: the top fraction bit is 0. -/
def isSignaling (F : FloatFormat) (b : BitVec F.width) : Bool := isNaN F b && fracField F b < 2 ^ (F.fracBits - 1)

/-- `1` or `-1`. -/
def signOf (neg : Bool) : ℚ := if neg then -1 else 1

/-- The value of a finite datum: `(-1)^s * m * 2^qmin` when the exponent field is 0, else
`(-1)^s * (1 + m / 2^fracBits) * 2^(e - bias)` (R300). -/
def valueOf (F : FloatFormat) (b : BitVec F.width) : ℚ :=
  signOf (signBit F b) *
    if expField F b = 0 then (fracField F b : ℚ) * (2 : ℚ) ^ F.qmin
    else (1 + (fracField F b : ℚ) / 2 ^ F.fracBits) * (2 : ℚ) ^ ((expField F b : Int) - F.bias)

/-- `a < b`, neither a NaN: infinities at the ends, `-0` equal to `+0`. -/
def Less (F : FloatFormat) (a b : BitVec F.width) : Prop :=
  (isInfinite F a = true ∧ signBit F a = true ∧ ¬ (isInfinite F b = true ∧ signBit F b = true)) ∨
    (isInfinite F b = true ∧ signBit F b = false ∧ ¬ (isInfinite F a = true ∧ signBit F a = false)) ∨
    (isFinite F a = true ∧ isFinite F b = true ∧ valueOf F a < valueOf F b)

/-! ### Rounding, once, of an exact real value (`44_f_single.md` R304) -/

/-- The mode rounds an inexact value of this sign away from zero (directed modes), or overflows it to infinity. -/
def goesAway (mode : RoundingMode) (neg : Bool) : Bool :=
  match mode with
  | .rne => true
  | .rmm => true
  | .rtz => false
  | .rdn => neg
  | .rup => !neg

/-- `2^(emax + 1)`, the first power of two beyond the finite data. -/
def topOf (F : FloatFormat) : ℚ := (2 : ℚ) ^ (F.bias + 1)
/-- The unit in the last place of the largest finite data. -/
def topUnit (F : FloatFormat) : ℚ := (2 : ℚ) ^ (F.bias - F.fracBits)

/-- Rounded with unbounded exponent, `v` exceeds the largest finite magnitude `topOf - topUnit`. -/
def Overflows (F : FloatFormat) (mode : RoundingMode) (v : ℝ) : Prop :=
  match mode with
  | .rne => ((topOf F - topUnit F / 2 : ℚ) : ℝ) ≤ |v|
  | .rmm => ((topOf F - topUnit F / 2 : ℚ) : ℝ) ≤ |v|
  | .rtz => (topOf F : ℝ) ≤ |v|
  | .rdn => (topOf F : ℝ) ≤ |v| ∨ (v < 0 ∧ ((topOf F - topUnit F : ℚ) : ℝ) < |v|)
  | .rup => (topOf F : ℝ) ≤ |v| ∨ (0 < v ∧ ((topOf F - topUnit F : ℚ) : ℝ) < |v|)

/-- `2^emin`, the least normal magnitude. -/
def bottomOf (F : FloatFormat) : ℚ := (2 : ℚ) ^ (F.emin)
/-- The spacing, with unbounded exponent, of the magnitudes just below `2^emin`. -/
def bottomUnit (F : FloatFormat) : ℚ := (2 : ℚ) ^ (F.emin - 1 - F.fracBits)

/-- Rounded with unbounded exponent, `v` has a magnitude below `2^emin`: tininess after rounding. -/
def Tiny (F : FloatFormat) (mode : RoundingMode) (v : ℝ) : Prop :=
  match mode with
  | .rne => |v| < ((bottomOf F - bottomUnit F / 2 : ℚ) : ℝ)
  | .rmm => |v| < ((bottomOf F - bottomUnit F / 2 : ℚ) : ℝ)
  | .rtz => |v| < (bottomOf F : ℝ)
  | .rdn => |v| < (bottomOf F : ℝ) ∧ (v < 0 → |v| ≤ ((bottomOf F - bottomUnit F : ℚ) : ℝ))
  | .rup => |v| < (bottomOf F : ℝ) ∧ (0 < v → |v| ≤ ((bottomOf F - bottomUnit F : ℚ) : ℝ))

/-- `r` is at least as near to `v` as every finite datum. -/
def Nearest (F : FloatFormat) (v : ℝ) (r : BitVec F.width) : Prop :=
  ∀ b, isFinite F b = true → |v - valueOf F r| ≤ |v - valueOf F b|

/-- `r` has the value that the mode picks for `v` among all finite data (`10_state.md` R31). -/
def RoundsTo (F : FloatFormat) (mode : RoundingMode) (v : ℝ) (r : BitVec F.width) : Prop :=
  match mode with
  | .rne => Nearest F v r ∧ ∀ b, isFinite F b = true → valueOf F b ≠ valueOf F r →
      |v - valueOf F b| = |v - valueOf F r| → r.getLsbD 0 = false
  | .rmm => Nearest F v r ∧ ∀ b, isFinite F b = true → |v - valueOf F b| = |v - valueOf F r| →
      |(valueOf F b : ℝ)| ≤ |(valueOf F r : ℝ)|
  | .rtz => |(valueOf F r : ℝ)| ≤ |v| ∧ ∀ b, isFinite F b = true → |(valueOf F b : ℝ)| ≤ |v| →
      |(valueOf F b : ℝ)| ≤ |(valueOf F r : ℝ)|
  | .rdn => (valueOf F r : ℝ) ≤ v ∧ ∀ b, isFinite F b = true → (valueOf F b : ℝ) ≤ v →
      (valueOf F b : ℝ) ≤ valueOf F r
  | .rup => v ≤ (valueOf F r : ℝ) ∧ ∀ b, isFinite F b = true → v ≤ (valueOf F b : ℝ) →
      (valueOf F r : ℝ) ≤ valueOf F b

/-- The result and the flags are those R304 gives for the exact value `v`, not 0: on overflow infinity or the largest
finite number with OF and NX; else the finite datum the mode picks, with the sign of `v`, NX exactly when it differs
from `v`, and UF exactly when it differs and `v` is tiny. -/
def Rounded (F : FloatFormat) (mode : RoundingMode) (v : ℝ) (r : FpResult F) : Prop :=
  (signBit F r.1 = true ↔ v < 0) ∧
    (Overflows F mode v →
      r.2 = { ofl := true, nx := true } ∧
        (goesAway mode (signBit F r.1) = true → isInfinite F r.1 = true) ∧
        (goesAway mode (signBit F r.1) = false → isFinite F r.1 = true ∧ |valueOf F r.1| = topOf F - topUnit F)) ∧
    (¬ Overflows F mode v →
      isFinite F r.1 = true ∧ RoundsTo F mode v r.1 ∧
        r.2.nv = false ∧ r.2.dz = false ∧ r.2.ofl = false ∧
        (r.2.nx = true ↔ (valueOf F r.1 : ℝ) ≠ v) ∧
        (r.2.ufl = true ↔ (valueOf F r.1 : ℝ) ≠ v ∧ Tiny F mode v))

/-- `n` is the integer that the mode picks for `v` (R306). -/
def RoundsToInt (mode : RoundingMode) (v : ℚ) (n : Int) : Prop :=
  match mode with
  | .rne => |v - n| ≤ 1 / 2 ∧ (|v - n| = 1 / 2 → n % 2 = 0)
  | .rmm => |v - n| ≤ 1 / 2 ∧ (|v - n| = 1 / 2 → |v| ≤ |(n : ℚ)|)
  | .rtz => |(n : ℚ)| ≤ |v| ∧ |v - n| < 1
  | .rdn => (n : ℚ) ≤ v ∧ v < n + 1
  | .rup => v ≤ n ∧ (n : ℚ) - 1 < v

/-- `v` and the flags are the conversion of `a` to an integer of `lo` to `hi`: rounded, NX when that changed it; out of
range, infinite or a NaN, saturated with NV (R306). -/
def ConvertsToInt (F : FloatFormat) (mode : RoundingMode) (a : BitVec F.width) (lo hi v : Int) (f : Flags) : Prop :=
  (isNaN F a = true → v = hi ∧ f = { nv := true }) ∧
    (isInfinite F a = true → v = (if signBit F a then lo else hi) ∧ f = { nv := true }) ∧
    (isFinite F a = true → ∃ n, RoundsToInt mode (valueOf F a) n ∧
      (n < lo → v = lo ∧ f = { nv := true }) ∧
      (hi < n → v = hi ∧ f = { nv := true }) ∧
      (lo ≤ n → n ≤ hi → v = n ∧ f = { nx := decide ((n : ℚ) ≠ valueOf F a) }))

/-- `r` is the integer `v` converted to the format: `+0` for 0, else rounded once, NX its only flag (R307). -/
def FromInt (F : FloatFormat) (mode : RoundingMode) (v : Int) (r : FpResult F) : Prop :=
  (v = 0 → r = (zero F false, {})) ∧ (v ≠ 0 → Rounded F mode (v : ℝ) r ∧ r.2 = { nx := r.2.nx })

/-! ### Minimum, maximum, classes -/

/-- What FMIN (`least`) or FMAX gives for operands and the NV flag: a number rather than a NaN, the canonical NaN for
two NaNs, `-0` below `+0`; NV for a signaling NaN operand (R323, R324, D29). -/
def Extreme (F : FloatFormat) (least : Bool) (a b : BitVec F.width) (r : FpResult F) : Prop :=
  r.2 = { nv := isSignaling F a || isSignaling F b } ∧
    (isNaN F a = true → isNaN F b = true → r.1 = canonicalNaN F) ∧
    (isNaN F a = true → isNaN F b = false → r.1 = b) ∧
    (isNaN F a = false → isNaN F b = true → r.1 = a) ∧
    (isNaN F a = false → isNaN F b = false →
      (Less F a b → r.1 = if least then a else b) ∧
      (Less F b a → r.1 = if least then b else a) ∧
      (¬ Less F a b → ¬ Less F b a → (r.1 = a ∨ r.1 = b) ∧
        signBit F r.1 = if least then signBit F a || signBit F b else signBit F a && signBit F b))

/-- The bit of the class mask that FCLASS sets (R334). -/
def classNumber (F : FloatFormat) (a : BitVec F.width) : Nat :=
  if isNaN F a then (if isSignaling F a then 8 else 9)
  else if isInfinite F a then (if signBit F a then 0 else 7)
  else if expField F a ≠ 0 then (if signBit F a then 1 else 6)
  else if fracField F a ≠ 0 then (if signBit F a then 2 else 5)
  else if signBit F a then 3 else 4

/-! ### Classes of instructions -/

/-- The rounding-mode field of an instruction that has one (formats R-rm and R4, `30_encoding.md` R112). -/
def rmOf : Instr → Option (BitVec 3)
  | .fmaddS rm _ _ _ _ => some rm
  | .fmsubS rm _ _ _ _ => some rm
  | .fnmsubS rm _ _ _ _ => some rm
  | .fnmaddS rm _ _ _ _ => some rm
  | .faddS rm _ _ _ => some rm
  | .fsubS rm _ _ _ => some rm
  | .fmulS rm _ _ _ => some rm
  | .fdivS rm _ _ _ => some rm
  | .fsqrtS rm _ _ => some rm
  | .fcvtWS rm _ _ => some rm
  | .fcvtWuS rm _ _ => some rm
  | .fcvtSW rm _ _ => some rm
  | .fcvtSWu rm _ _ => some rm
  | .fcvtLS rm _ _ => some rm
  | .fcvtLuS rm _ _ => some rm
  | .fcvtSL rm _ _ => some rm
  | .fcvtSLu rm _ _ => some rm
  | .fmaddD rm _ _ _ _ => some rm
  | .fmsubD rm _ _ _ _ => some rm
  | .fnmsubD rm _ _ _ _ => some rm
  | .fnmaddD rm _ _ _ _ => some rm
  | .faddD rm _ _ _ => some rm
  | .fsubD rm _ _ _ => some rm
  | .fmulD rm _ _ _ => some rm
  | .fdivD rm _ _ _ => some rm
  | .fsqrtD rm _ _ => some rm
  | .fcvtWD rm _ _ => some rm
  | .fcvtWuD rm _ _ => some rm
  | .fcvtDW rm _ _ => some rm
  | .fcvtDWu rm _ _ => some rm
  | .fcvtLD rm _ _ => some rm
  | .fcvtLuD rm _ _ => some rm
  | .fcvtDL rm _ _ => some rm
  | .fcvtDLu rm _ _ => some rm
  | _ => none

/-- The exceptions an instruction can raise once it is fetched and decoded (`60_exceptions.md` R422). -/
def raisable : Instr → List Cause
  | .lui .. => []
  | .auipc .. => []
  | .jal .. => [.instructionAddressMisaligned]
  | .jalr .. => [.instructionAddressMisaligned]
  | .beq .. => [.instructionAddressMisaligned]
  | .bne .. => [.instructionAddressMisaligned]
  | .blt .. => [.instructionAddressMisaligned]
  | .bge .. => [.instructionAddressMisaligned]
  | .bltu .. => [.instructionAddressMisaligned]
  | .bgeu .. => [.instructionAddressMisaligned]
  | .lb .. => [.loadAccessFault]
  | .lh .. => [.loadAddressMisaligned, .loadAccessFault]
  | .lw .. => [.loadAddressMisaligned, .loadAccessFault]
  | .lbu .. => [.loadAccessFault]
  | .lhu .. => [.loadAddressMisaligned, .loadAccessFault]
  | .sb .. => [.storeAMOAccessFault]
  | .sh .. => [.storeAMOAddressMisaligned, .storeAMOAccessFault]
  | .sw .. => [.storeAMOAddressMisaligned, .storeAMOAccessFault]
  | .addi .. => []
  | .slti .. => []
  | .sltiu .. => []
  | .xori .. => []
  | .ori .. => []
  | .andi .. => []
  | .slli32 .. => []
  | .srli32 .. => []
  | .srai32 .. => []
  | .add .. => []
  | .sub .. => []
  | .sll .. => []
  | .slt .. => []
  | .sltu .. => []
  | .xor .. => []
  | .srl .. => []
  | .sra .. => []
  | .or .. => []
  | .and .. => []
  | .fence .. => []
  | .fenceI => []
  | .ecall => [.environmentCall]
  | .ebreak => [.breakpoint]
  | .lwu .. => [.loadAddressMisaligned, .loadAccessFault]
  | .ld .. => [.loadAddressMisaligned, .loadAccessFault]
  | .sd .. => [.storeAMOAddressMisaligned, .storeAMOAccessFault]
  | .slli64 .. => []
  | .srli64 .. => []
  | .srai64 .. => []
  | .addiw .. => []
  | .slliw .. => []
  | .srliw .. => []
  | .sraiw .. => []
  | .addw .. => []
  | .subw .. => []
  | .sllw .. => []
  | .srlw .. => []
  | .sraw .. => []
  | .mul .. => []
  | .mulh .. => []
  | .mulhsu .. => []
  | .mulhu .. => []
  | .div .. => []
  | .divu .. => []
  | .rem .. => []
  | .remu .. => []
  | .mulw .. => []
  | .divw .. => []
  | .divuw .. => []
  | .remw .. => []
  | .remuw .. => []
  | .lrW .. => [.loadAddressMisaligned, .loadAccessFault]
  | .scW .. => [.storeAMOAddressMisaligned, .storeAMOAccessFault]
  | .amoswapW .. => [.storeAMOAddressMisaligned, .storeAMOAccessFault]
  | .amoaddW .. => [.storeAMOAddressMisaligned, .storeAMOAccessFault]
  | .amoxorW .. => [.storeAMOAddressMisaligned, .storeAMOAccessFault]
  | .amoorW .. => [.storeAMOAddressMisaligned, .storeAMOAccessFault]
  | .amoandW .. => [.storeAMOAddressMisaligned, .storeAMOAccessFault]
  | .amominW .. => [.storeAMOAddressMisaligned, .storeAMOAccessFault]
  | .amomaxW .. => [.storeAMOAddressMisaligned, .storeAMOAccessFault]
  | .amominuW .. => [.storeAMOAddressMisaligned, .storeAMOAccessFault]
  | .amomaxuW .. => [.storeAMOAddressMisaligned, .storeAMOAccessFault]
  | .lrD .. => [.loadAddressMisaligned, .loadAccessFault]
  | .scD .. => [.storeAMOAddressMisaligned, .storeAMOAccessFault]
  | .amoswapD .. => [.storeAMOAddressMisaligned, .storeAMOAccessFault]
  | .amoaddD .. => [.storeAMOAddressMisaligned, .storeAMOAccessFault]
  | .amoxorD .. => [.storeAMOAddressMisaligned, .storeAMOAccessFault]
  | .amoorD .. => [.storeAMOAddressMisaligned, .storeAMOAccessFault]
  | .amoandD .. => [.storeAMOAddressMisaligned, .storeAMOAccessFault]
  | .amominD .. => [.storeAMOAddressMisaligned, .storeAMOAccessFault]
  | .amomaxD .. => [.storeAMOAddressMisaligned, .storeAMOAccessFault]
  | .amominuD .. => [.storeAMOAddressMisaligned, .storeAMOAccessFault]
  | .amomaxuD .. => [.storeAMOAddressMisaligned, .storeAMOAccessFault]
  | .flw .. => [.loadAddressMisaligned, .loadAccessFault]
  | .fsw .. => [.storeAMOAddressMisaligned, .storeAMOAccessFault]
  | .fmaddS .. => [.illegalInstruction]
  | .fmsubS .. => [.illegalInstruction]
  | .fnmsubS .. => [.illegalInstruction]
  | .fnmaddS .. => [.illegalInstruction]
  | .faddS .. => [.illegalInstruction]
  | .fsubS .. => [.illegalInstruction]
  | .fmulS .. => [.illegalInstruction]
  | .fdivS .. => [.illegalInstruction]
  | .fsgnjS .. => []
  | .fsgnjnS .. => []
  | .fsgnjxS .. => []
  | .fminS .. => []
  | .fmaxS .. => []
  | .fsqrtS .. => [.illegalInstruction]
  | .fleS .. => []
  | .fltS .. => []
  | .feqS .. => []
  | .fcvtWS .. => [.illegalInstruction]
  | .fcvtWuS .. => [.illegalInstruction]
  | .fcvtSW .. => [.illegalInstruction]
  | .fcvtSWu .. => [.illegalInstruction]
  | .fmvXS .. => []
  | .fclassS .. => []
  | .fmvSX .. => []
  | .frcsr .. => []
  | .frrm .. => []
  | .frflags .. => []
  | .fscsr .. => []
  | .fsrm .. => []
  | .fsflags .. => []
  | .fsrmi .. => []
  | .fsflagsi .. => []
  | .fcvtLS .. => [.illegalInstruction]
  | .fcvtLuS .. => [.illegalInstruction]
  | .fcvtSL .. => [.illegalInstruction]
  | .fcvtSLu .. => [.illegalInstruction]
  | .fld .. => [.loadAddressMisaligned, .loadAccessFault]
  | .fsd .. => [.storeAMOAddressMisaligned, .storeAMOAccessFault]
  | .fmaddD .. => [.illegalInstruction]
  | .fmsubD .. => [.illegalInstruction]
  | .fnmsubD .. => [.illegalInstruction]
  | .fnmaddD .. => [.illegalInstruction]
  | .faddD .. => [.illegalInstruction]
  | .fsubD .. => [.illegalInstruction]
  | .fmulD .. => [.illegalInstruction]
  | .fdivD .. => [.illegalInstruction]
  | .fsgnjD .. => []
  | .fsgnjnD .. => []
  | .fsgnjxD .. => []
  | .fminD .. => []
  | .fmaxD .. => []
  | .fsqrtD .. => [.illegalInstruction]
  | .fleD .. => []
  | .fltD .. => []
  | .feqD .. => []
  | .fcvtWD .. => [.illegalInstruction]
  | .fcvtWuD .. => [.illegalInstruction]
  | .fcvtDW .. => [.illegalInstruction]
  | .fcvtDWu .. => [.illegalInstruction]
  | .fclassD .. => []
  | .fcvtLD .. => [.illegalInstruction]
  | .fcvtLuD .. => [.illegalInstruction]
  | .fcvtDL .. => [.illegalInstruction]
  | .fcvtDLu .. => [.illegalInstruction]
  | .fmvXD .. => []
  | .fmvDX .. => []

/-- JAL, JALR and the conditional branches: the only instructions that move `pc` elsewhere than to `pc + 4` (R24). -/
def isTransfer : Instr → Bool
  | .jal .. => true
  | .jalr .. => true
  | .beq .. => true
  | .bne .. => true
  | .blt .. => true
  | .bge .. => true
  | .bltu .. => true
  | .bgeu .. => true
  | _ => false

/-- The instructions that can write memory: stores, SC and the AMOs. -/
def writesMemory : Instr → Bool
  | .sb .. => true
  | .sh .. => true
  | .sw .. => true
  | .sd .. => true
  | .scW .. => true
  | .amoswapW .. => true
  | .amoaddW .. => true
  | .amoxorW .. => true
  | .amoorW .. => true
  | .amoandW .. => true
  | .amominW .. => true
  | .amomaxW .. => true
  | .amominuW .. => true
  | .amomaxuW .. => true
  | .scD .. => true
  | .amoswapD .. => true
  | .amoaddD .. => true
  | .amoxorD .. => true
  | .amoorD .. => true
  | .amoandD .. => true
  | .amominD .. => true
  | .amomaxD .. => true
  | .amominuD .. => true
  | .amomaxuD .. => true
  | .fsw .. => true
  | .fsd .. => true
  | _ => false

/-- LR and SC: the instructions that change the reservation (`43_a_atomics.md` R261). -/
def touchesReservation : Instr → Bool
  | .lrW .. => true
  | .scW .. => true
  | .lrD .. => true
  | .scD .. => true
  | _ => false

/-- FSCSR, FSFLAGS and FSFLAGSI: the instructions that can clear a flag (`10_state.md` R32). -/
def writesFflags : Instr → Bool
  | .fscsr .. => true
  | .fsflags .. => true
  | .fsflagsi .. => true
  | _ => false

/-- FSCSR, FSRM and FSRMI: the instructions that write `frm` (`44_f_single.md` R339, R340, R342). -/
def writesFrm : Instr → Bool
  | .fscsr .. => true
  | .fsrm .. => true
  | .fsrmi .. => true
  | _ => false

/-- The integer register an instruction may write: its `rd`, where that field names an integer register (`30_encoding.md`
R123). -/
def destX : Instr → Option XReg
  | .lui rd _ => some rd
  | .auipc rd _ => some rd
  | .jal rd _ => some rd
  | .jalr rd _ _ => some rd
  | .lb rd _ _ => some rd
  | .lh rd _ _ => some rd
  | .lw rd _ _ => some rd
  | .lbu rd _ _ => some rd
  | .lhu rd _ _ => some rd
  | .addi rd _ _ => some rd
  | .slti rd _ _ => some rd
  | .sltiu rd _ _ => some rd
  | .xori rd _ _ => some rd
  | .ori rd _ _ => some rd
  | .andi rd _ _ => some rd
  | .slli32 rd _ _ => some rd
  | .srli32 rd _ _ => some rd
  | .srai32 rd _ _ => some rd
  | .add rd _ _ => some rd
  | .sub rd _ _ => some rd
  | .sll rd _ _ => some rd
  | .slt rd _ _ => some rd
  | .sltu rd _ _ => some rd
  | .xor rd _ _ => some rd
  | .srl rd _ _ => some rd
  | .sra rd _ _ => some rd
  | .or rd _ _ => some rd
  | .and rd _ _ => some rd
  | .lwu rd _ _ => some rd
  | .ld rd _ _ => some rd
  | .slli64 rd _ _ => some rd
  | .srli64 rd _ _ => some rd
  | .srai64 rd _ _ => some rd
  | .addiw rd _ _ => some rd
  | .slliw rd _ _ => some rd
  | .srliw rd _ _ => some rd
  | .sraiw rd _ _ => some rd
  | .addw rd _ _ => some rd
  | .subw rd _ _ => some rd
  | .sllw rd _ _ => some rd
  | .srlw rd _ _ => some rd
  | .sraw rd _ _ => some rd
  | .mul rd _ _ => some rd
  | .mulh rd _ _ => some rd
  | .mulhsu rd _ _ => some rd
  | .mulhu rd _ _ => some rd
  | .div rd _ _ => some rd
  | .divu rd _ _ => some rd
  | .rem rd _ _ => some rd
  | .remu rd _ _ => some rd
  | .mulw rd _ _ => some rd
  | .divw rd _ _ => some rd
  | .divuw rd _ _ => some rd
  | .remw rd _ _ => some rd
  | .remuw rd _ _ => some rd
  | .lrW _ _ rd _ => some rd
  | .scW _ _ rd _ _ => some rd
  | .amoswapW _ _ rd _ _ => some rd
  | .amoaddW _ _ rd _ _ => some rd
  | .amoxorW _ _ rd _ _ => some rd
  | .amoorW _ _ rd _ _ => some rd
  | .amoandW _ _ rd _ _ => some rd
  | .amominW _ _ rd _ _ => some rd
  | .amomaxW _ _ rd _ _ => some rd
  | .amominuW _ _ rd _ _ => some rd
  | .amomaxuW _ _ rd _ _ => some rd
  | .lrD _ _ rd _ => some rd
  | .scD _ _ rd _ _ => some rd
  | .amoswapD _ _ rd _ _ => some rd
  | .amoaddD _ _ rd _ _ => some rd
  | .amoxorD _ _ rd _ _ => some rd
  | .amoorD _ _ rd _ _ => some rd
  | .amoandD _ _ rd _ _ => some rd
  | .amominD _ _ rd _ _ => some rd
  | .amomaxD _ _ rd _ _ => some rd
  | .amominuD _ _ rd _ _ => some rd
  | .amomaxuD _ _ rd _ _ => some rd
  | .fleS rd _ _ => some rd
  | .fltS rd _ _ => some rd
  | .feqS rd _ _ => some rd
  | .fcvtWS _ rd _ => some rd
  | .fcvtWuS _ rd _ => some rd
  | .fmvXS rd _ => some rd
  | .fclassS rd _ => some rd
  | .frcsr rd => some rd
  | .frrm rd => some rd
  | .frflags rd => some rd
  | .fscsr rd _ => some rd
  | .fsrm rd _ => some rd
  | .fsflags rd _ => some rd
  | .fsrmi rd _ => some rd
  | .fsflagsi rd _ => some rd
  | .fcvtLS _ rd _ => some rd
  | .fcvtLuS _ rd _ => some rd
  | .fleD rd _ _ => some rd
  | .fltD rd _ _ => some rd
  | .feqD rd _ _ => some rd
  | .fcvtWD _ rd _ => some rd
  | .fcvtWuD _ rd _ => some rd
  | .fclassD rd _ => some rd
  | .fcvtLD _ rd _ => some rd
  | .fcvtLuD _ rd _ => some rd
  | .fmvXD rd _ => some rd
  | _ => none

/-- The floating-point register an instruction may write (R123). -/
def destF : Instr → Option FReg
  | .flw rd _ _ => some rd
  | .fmaddS _ rd _ _ _ => some rd
  | .fmsubS _ rd _ _ _ => some rd
  | .fnmsubS _ rd _ _ _ => some rd
  | .fnmaddS _ rd _ _ _ => some rd
  | .faddS _ rd _ _ => some rd
  | .fsubS _ rd _ _ => some rd
  | .fmulS _ rd _ _ => some rd
  | .fdivS _ rd _ _ => some rd
  | .fsgnjS rd _ _ => some rd
  | .fsgnjnS rd _ _ => some rd
  | .fsgnjxS rd _ _ => some rd
  | .fminS rd _ _ => some rd
  | .fmaxS rd _ _ => some rd
  | .fsqrtS _ rd _ => some rd
  | .fcvtSW _ rd _ => some rd
  | .fcvtSWu _ rd _ => some rd
  | .fmvSX rd _ => some rd
  | .fcvtSL _ rd _ => some rd
  | .fcvtSLu _ rd _ => some rd
  | .fld rd _ _ => some rd
  | .fmaddD _ rd _ _ _ => some rd
  | .fmsubD _ rd _ _ _ => some rd
  | .fnmsubD _ rd _ _ _ => some rd
  | .fnmaddD _ rd _ _ _ => some rd
  | .faddD _ rd _ _ => some rd
  | .fsubD _ rd _ _ => some rd
  | .fmulD _ rd _ _ => some rd
  | .fdivD _ rd _ _ => some rd
  | .fsgnjD rd _ _ => some rd
  | .fsgnjnD rd _ _ => some rd
  | .fsgnjxD rd _ _ => some rd
  | .fminD rd _ _ => some rd
  | .fmaxD rd _ _ => some rd
  | .fsqrtD _ rd _ => some rd
  | .fcvtDW _ rd _ => some rd
  | .fcvtDWu _ rd _ => some rd
  | .fcvtDL _ rd _ => some rd
  | .fcvtDLu _ rd _ => some rd
  | .fmvDX rd _ => some rd
  | _ => none

end Sys2Proof.Machine
end

