-- ==== Sys2Proof/WellFormed.lean ====
section
/-! DEFINITION. Well-formed instructions: those some instruction word of the configured `XLEN` stands for. -/

namespace Sys2Proof

/-- A row of `opcode_table.json` exists for an `XLEN` (key `xlen`, `30_encoding.md` R126): this one in both. -/
def rowOfBoth : Bool := true

/-- A row that exists only when `XLEN = 32` (R126: SLLI, SRLI, SRAI with a 5-bit shift amount). -/
def rowOf32 (x : XLen) : Bool := x == .rv32

/-- A row that exists only when `XLEN = 64` (R126, `41_rv64i.md` R220). -/
def rowOf64 (x : XLen) : Bool := x == .rv64

/-- A branch or jump offset is even: its bit 0 has no place in the word (R118, R120). -/
def evenOffset {n : Nat} (off : BitVec n) : Bool := !off.getLsbD 0

/-- An instruction is well formed for an `XLEN` when the row exists there (R126) and its offset, if it has one, is
even (R118, R120). Every other operand value is encodable: register numbers, immediates, shift amounts, `rm`, `aq`,
`rl`, `pred` and `succ` fill their fields (R134). -/
def Instr.wellFormed (x : XLen) (i : Instr) : Bool :=
  match i with
  | .lui _ _ => rowOfBoth
  | .auipc _ _ => rowOfBoth
  | .jal _ off => rowOfBoth && evenOffset off
  | .jalr _ _ _ => rowOfBoth
  | .beq _ _ off => rowOfBoth && evenOffset off
  | .bne _ _ off => rowOfBoth && evenOffset off
  | .blt _ _ off => rowOfBoth && evenOffset off
  | .bge _ _ off => rowOfBoth && evenOffset off
  | .bltu _ _ off => rowOfBoth && evenOffset off
  | .bgeu _ _ off => rowOfBoth && evenOffset off
  | .lb _ _ _ => rowOfBoth
  | .lh _ _ _ => rowOfBoth
  | .lw _ _ _ => rowOfBoth
  | .lbu _ _ _ => rowOfBoth
  | .lhu _ _ _ => rowOfBoth
  | .sb _ _ _ => rowOfBoth
  | .sh _ _ _ => rowOfBoth
  | .sw _ _ _ => rowOfBoth
  | .addi _ _ _ => rowOfBoth
  | .slti _ _ _ => rowOfBoth
  | .sltiu _ _ _ => rowOfBoth
  | .xori _ _ _ => rowOfBoth
  | .ori _ _ _ => rowOfBoth
  | .andi _ _ _ => rowOfBoth
  | .slli32 _ _ _ => rowOf32 x
  | .srli32 _ _ _ => rowOf32 x
  | .srai32 _ _ _ => rowOf32 x
  | .add _ _ _ => rowOfBoth
  | .sub _ _ _ => rowOfBoth
  | .sll _ _ _ => rowOfBoth
  | .slt _ _ _ => rowOfBoth
  | .sltu _ _ _ => rowOfBoth
  | .xor _ _ _ => rowOfBoth
  | .srl _ _ _ => rowOfBoth
  | .sra _ _ _ => rowOfBoth
  | .or _ _ _ => rowOfBoth
  | .and _ _ _ => rowOfBoth
  | .fence _ _ => rowOfBoth
  | .fenceI => rowOfBoth
  | .ecall => rowOfBoth
  | .ebreak => rowOfBoth
  | .lwu _ _ _ => rowOf64 x
  | .ld _ _ _ => rowOf64 x
  | .sd _ _ _ => rowOf64 x
  | .slli64 _ _ _ => rowOf64 x
  | .srli64 _ _ _ => rowOf64 x
  | .srai64 _ _ _ => rowOf64 x
  | .addiw _ _ _ => rowOf64 x
  | .slliw _ _ _ => rowOf64 x
  | .srliw _ _ _ => rowOf64 x
  | .sraiw _ _ _ => rowOf64 x
  | .addw _ _ _ => rowOf64 x
  | .subw _ _ _ => rowOf64 x
  | .sllw _ _ _ => rowOf64 x
  | .srlw _ _ _ => rowOf64 x
  | .sraw _ _ _ => rowOf64 x
  | .mul _ _ _ => rowOfBoth
  | .mulh _ _ _ => rowOfBoth
  | .mulhsu _ _ _ => rowOfBoth
  | .mulhu _ _ _ => rowOfBoth
  | .div _ _ _ => rowOfBoth
  | .divu _ _ _ => rowOfBoth
  | .rem _ _ _ => rowOfBoth
  | .remu _ _ _ => rowOfBoth
  | .mulw _ _ _ => rowOf64 x
  | .divw _ _ _ => rowOf64 x
  | .divuw _ _ _ => rowOf64 x
  | .remw _ _ _ => rowOf64 x
  | .remuw _ _ _ => rowOf64 x
  | .lrW _ _ _ _ => rowOfBoth
  | .scW _ _ _ _ _ => rowOfBoth
  | .amoswapW _ _ _ _ _ => rowOfBoth
  | .amoaddW _ _ _ _ _ => rowOfBoth
  | .amoxorW _ _ _ _ _ => rowOfBoth
  | .amoorW _ _ _ _ _ => rowOfBoth
  | .amoandW _ _ _ _ _ => rowOfBoth
  | .amominW _ _ _ _ _ => rowOfBoth
  | .amomaxW _ _ _ _ _ => rowOfBoth
  | .amominuW _ _ _ _ _ => rowOfBoth
  | .amomaxuW _ _ _ _ _ => rowOfBoth
  | .lrD _ _ _ _ => rowOf64 x
  | .scD _ _ _ _ _ => rowOf64 x
  | .amoswapD _ _ _ _ _ => rowOf64 x
  | .amoaddD _ _ _ _ _ => rowOf64 x
  | .amoxorD _ _ _ _ _ => rowOf64 x
  | .amoorD _ _ _ _ _ => rowOf64 x
  | .amoandD _ _ _ _ _ => rowOf64 x
  | .amominD _ _ _ _ _ => rowOf64 x
  | .amomaxD _ _ _ _ _ => rowOf64 x
  | .amominuD _ _ _ _ _ => rowOf64 x
  | .amomaxuD _ _ _ _ _ => rowOf64 x
  | .flw _ _ _ => rowOfBoth
  | .fsw _ _ _ => rowOfBoth
  | .fmaddS _ _ _ _ _ => rowOfBoth
  | .fmsubS _ _ _ _ _ => rowOfBoth
  | .fnmsubS _ _ _ _ _ => rowOfBoth
  | .fnmaddS _ _ _ _ _ => rowOfBoth
  | .faddS _ _ _ _ => rowOfBoth
  | .fsubS _ _ _ _ => rowOfBoth
  | .fmulS _ _ _ _ => rowOfBoth
  | .fdivS _ _ _ _ => rowOfBoth
  | .fsgnjS _ _ _ => rowOfBoth
  | .fsgnjnS _ _ _ => rowOfBoth
  | .fsgnjxS _ _ _ => rowOfBoth
  | .fminS _ _ _ => rowOfBoth
  | .fmaxS _ _ _ => rowOfBoth
  | .fsqrtS _ _ _ => rowOfBoth
  | .fleS _ _ _ => rowOfBoth
  | .fltS _ _ _ => rowOfBoth
  | .feqS _ _ _ => rowOfBoth
  | .fcvtWS _ _ _ => rowOfBoth
  | .fcvtWuS _ _ _ => rowOfBoth
  | .fcvtSW _ _ _ => rowOfBoth
  | .fcvtSWu _ _ _ => rowOfBoth
  | .fmvXS _ _ => rowOfBoth
  | .fclassS _ _ => rowOfBoth
  | .fmvSX _ _ => rowOfBoth
  | .frcsr _ => rowOfBoth
  | .frrm _ => rowOfBoth
  | .frflags _ => rowOfBoth
  | .fscsr _ _ => rowOfBoth
  | .fsrm _ _ => rowOfBoth
  | .fsflags _ _ => rowOfBoth
  | .fsrmi _ _ => rowOfBoth
  | .fsflagsi _ _ => rowOfBoth
  | .fcvtLS _ _ _ => rowOf64 x
  | .fcvtLuS _ _ _ => rowOf64 x
  | .fcvtSL _ _ _ => rowOf64 x
  | .fcvtSLu _ _ _ => rowOf64 x
  | .fld _ _ _ => rowOfBoth
  | .fsd _ _ _ => rowOfBoth
  | .fmaddD _ _ _ _ _ => rowOfBoth
  | .fmsubD _ _ _ _ _ => rowOfBoth
  | .fnmsubD _ _ _ _ _ => rowOfBoth
  | .fnmaddD _ _ _ _ _ => rowOfBoth
  | .faddD _ _ _ _ => rowOfBoth
  | .fsubD _ _ _ _ => rowOfBoth
  | .fmulD _ _ _ _ => rowOfBoth
  | .fdivD _ _ _ _ => rowOfBoth
  | .fsgnjD _ _ _ => rowOfBoth
  | .fsgnjnD _ _ _ => rowOfBoth
  | .fsgnjxD _ _ _ => rowOfBoth
  | .fminD _ _ _ => rowOfBoth
  | .fmaxD _ _ _ => rowOfBoth
  | .fsqrtD _ _ _ => rowOfBoth
  | .fleD _ _ _ => rowOfBoth
  | .fltD _ _ _ => rowOfBoth
  | .feqD _ _ _ => rowOfBoth
  | .fcvtWD _ _ _ => rowOfBoth
  | .fcvtWuD _ _ _ => rowOfBoth
  | .fcvtDW _ _ _ => rowOfBoth
  | .fcvtDWu _ _ _ => rowOfBoth
  | .fclassD _ _ => rowOfBoth
  | .fcvtLD _ _ _ => rowOf64 x
  | .fcvtLuD _ _ _ => rowOf64 x
  | .fcvtDL _ _ _ => rowOf64 x
  | .fcvtDLu _ _ _ => rowOf64 x
  | .fmvXD _ _ => rowOf64 x
  | .fmvDX _ _ => rowOf64 x

end Sys2Proof
end

