-- ==== Sys2Proof/Certificates/Slice0/Obligations.lean ====
section
/-! DEFINITION. The statements for the provers, one `def Obligations.<Name> : Prop` each, listed in OBLIGATIONS.json.
The terms they use are those of Sys2Proof/Safety.lean; "log n" is notes/assumptions/n.md. A statement about an
instruction says, for every state and all operands its hypotheses admit, that `exec` answers a next state and what that
state holds: what is written and that everything else stays. -/

open Sys2Proof Sys2Proof.Machine

/-- For both XLEN values and every well-formed instruction, with every operand at every value, decoding its word gives
exactly that instruction; and reading the four little-endian bytes of the word, followed by any bytes, gives the
instruction and leaves the following bytes. (R126, R63, R110.) -/
def Obligations.DecodeInvertsEncode : Prop :=
  ∀ (x : XLen) (i : Instr), i.wellFormed x = true →
    decodeWord x (encode i) = .ok i ∧
      ∀ rest : List Byte, decodeBytes x (bytesOfWord (encode i) ++ rest) = .ok (i, rest)

/-- Whatever word decodes, for either XLEN, the instruction read is well formed there and its encoding is the word, but
for the one word 0x0800100F: FENCE.I with its ignored bit 27 set. (R126, R131, R134, R201.) -/
def Obligations.EncodeInvertsDecode : Prop :=
  ∀ (x : XLen) (w : InstWord) (i : Instr), decodeWord x w = .ok i →
    i.wellFormed x = true ∧ (encode i = w ∨ (i = .fenceI ∧ w = 0x0800100F))

/-- For each XLEN and each 32-bit word, at most one row of the opcode table accepts the word. (R126.) -/
def Obligations.OpcodeRowsDisjoint : Prop :=
  ∀ (x : XLen) (w : InstWord), (opcodeRows.filter (·.accepts x w)).length ≤ 1

/-- Sixteen words, at least one for each family, taken from the encodings of the spec, decode to the instructions they
stand for. (R126, R112.) -/
def Obligations.WrittenWordsDecode : Prop :=
  decodeWord .rv64 0b1000000_00000_00000_000_11111_0110111 = .ok (.lui ⟨31⟩ 524288) ∧
  decodeWord .rv64 0b1111111_11101_11111_111_00001_1101111 = .ok (.jal ⟨1⟩ (-4)) ∧
  decodeWord .rv64 0b0000000_00111_11110_000_01100_1100011 = .ok (.beq ⟨30⟩ ⟨7⟩ 12) ∧
  decodeWord .rv64 0b0000000_00100_00010_010_11111_0000011 = .ok (.lw ⟨31⟩ ⟨2⟩ 4) ∧
  decodeWord .rv64 0b1000000_10001_11110_011_00000_0100011 = .ok (.sd ⟨30⟩ ⟨17⟩ (-2048)) ∧
  decodeWord .rv64 0b1111111_11111_10000_000_01010_0010011 = .ok (.addi ⟨10⟩ ⟨16⟩ (-1)) ∧
  decodeWord .rv64 0b0100001_11111_00110_101_11111_0010011 = .ok (.srai64 ⟨31⟩ ⟨6⟩ 63) ∧
  decodeWord .rv64 0b0100000_01100_00110_000_00001_0110011 = .ok (.sub ⟨1⟩ ⟨6⟩ ⟨12⟩) ∧
  decodeWord .rv64 0b0000001_10001_00110_011_11111_0110011 = .ok (.mulhu ⟨31⟩ ⟨6⟩ ⟨17⟩) ∧
  decodeWord .rv64 0b1100001_11101_10000_010_01111_0101111 = .ok (.amominuW false true ⟨15⟩ ⟨16⟩ ⟨29⟩) ∧
  decodeWord .rv64 0b0001011_00000_11110_010_00101_0101111 = .ok (.lrW true true ⟨5⟩ ⟨30⟩) ∧
  decodeWord .rv64 0b0010000_11101_00010_111_01010_1000011 = .ok (.fmaddS 7 ⟨10⟩ ⟨2⟩ ⟨29⟩ ⟨4⟩) ∧
  decodeWord .rv64 0b0000100_01100_11110_100_00001_1010011 = .ok (.fsubS 4 ⟨1⟩ ⟨30⟩ ⟨12⟩) ∧
  decodeWord .rv64 0b0000000_00011_00000_010_00101_1110011 = .ok (.frcsr ⟨5⟩) ∧
  decodeWord .rv64 0b1111111_11111_10000_011_01010_0000111 = .ok (.fld ⟨10⟩ ⟨16⟩ (-1)) ∧
  decodeWord .rv64 0b1100001_00011_11110_011_00001_1010011 = .ok (.fcvtLuD 3 ⟨1⟩ ⟨30⟩)

/-- A word whose low seven bits are not one of the 21 major opcodes in use is refused, so every word with bits 1:0 other
than 11, the all-zero and the all-ones word and the custom opcodes are; a word whose instruction exists only when
XLEN is 64 is refused when XLEN is 32, but for the shifts with an amount below 32; a SYSTEM word that is read is one
of the ten listed; LR with bits 24:20 not zero and FCVT.S.D, FCVT.D.S are refused; a word with a used opcode and a
funct3, funct7, funct5 or format field that no row of it has is refused; an OP-FP word of a row with a fixed 24:20
pattern and another value there is refused. (R131, R126, R220.) -/
def Obligations.ReservedWordsRefused : Prop :=
  (∀ (x : XLen) (w : InstWord),
    (field w 0 7).toNat ∉ [0x03, 0x07, 0x0F, 0x13, 0x17, 0x1B, 0x23, 0x27, 0x2F, 0x33, 0x37, 0x3B, 0x43, 0x47, 0x4B,
      0x4F, 0x53, 0x63, 0x67, 0x6F, 0x73] →
    decodeWord x w = .error (.reserved w)) ∧
  (∀ (x : XLen) (w : InstWord), field w 0 2 ≠ 3 → decodeWord x w = .error (.reserved w)) ∧
  (∀ (w : InstWord) (i : Instr), decodeWord .rv64 w = .ok i → i.wellFormed .rv32 = false →
    decodeWord .rv32 w = .error (.reserved w) ∨
      ∃ (rd rs1 : XReg) (n : BitVec 6), n.toNat < 32 ∧
        (i = .slli64 rd rs1 n ∨ i = .srli64 rd rs1 n ∨ i = .srai64 rd rs1 n)) ∧
  (∀ (x : XLen) (w : InstWord) (i : Instr), field w 0 7 = 0x73 → decodeWord x w = .ok i →
    i = .ecall ∨ i = .ebreak ∨ ∃ (rd rs1 : XReg) (uimm : BitVec 5),
      i = .frcsr rd ∨ i = .frrm rd ∨ i = .frflags rd ∨ i = .fscsr rd rs1 ∨ i = .fsrm rd rs1 ∨
        i = .fsflags rd rs1 ∨ i = .fsrmi rd uimm ∨ i = .fsflagsi rd uimm) ∧
  (∀ (x : XLen) (w : InstWord), field w 0 7 = 0x2F → field w 27 5 = 2 → field w 20 5 ≠ 0 →
    decodeWord x w = .error (.reserved w)) ∧
  (∀ (x : XLen) (w : InstWord), field w 0 7 = 0x53 → (field w 25 7 = 0x20 ∨ field w 25 7 = 0x21) →
    decodeWord x w = .error (.reserved w)) ∧
  (∀ (x : XLen) (w : InstWord), unusedFunct w = true → decodeWord x w = .error (.reserved w)) ∧
  (∀ (x : XLen) (w : InstWord), otherFixedRs2 w = true → decodeWord x w = .error (.reserved w))

/-- While the hart runs, if the fetch at pc is valid, no byte of the instruction is stale and the little-endian word at
pc decodes to i, the step is exec of i on the same state; exec itself moves pc. All that step adds is the record of
the LR/SC loop the hart is in, the model's own field for the oracle of SC (log 7), and that only where the hart runs
on. (R11, R68, R63, R126.) -/
def Obligations.StepRunsDecodedInstruction : Prop :=
  ∀ (s t : State) (i : Instr), s.run = .running →
    s.params.memValid .fetch (readPc s.bits s).toNat 4 = true →
    (∀ a ∈ accessBytes (readPc s.bits s) 4, a ∉ s.stale) →
    decodeWord s.params.xlen (wordAt s (readPc s.bits s)) = .ok i →
    exec i s = .next t →
    (t.run = .running → step s = .next { t with retryLoop := nextLoop i s t }) ∧
      (t.run ≠ .running → step s = .next t)

/-- While the hart runs: if mem_valid refuses the fetch at pc, the step is a trap InstructionAccessFault with pc as info
and no other change, whatever is stale. If the fetch is valid and a byte of it is stale, the step is refused at a
stale byte of the instruction (log 8). If it is valid and not stale and no row accepts the word at pc, the step is a
trap IllegalInstruction whose info is the word, zero-extended; nothing else in the state changes. (R131, R68, R92,
R421, R424.) -/
def Obligations.ReservedWordsAndFailedFetches : Prop :=
  ∀ (s : State), s.run = .running →
    (s.params.memValid .fetch (readPc s.bits s).toNat 4 = false →
      ∃ t, step s = .next t ∧ TrapsWith .instructionAccessFault s.pc s t) ∧
    (s.params.memValid .fetch (readPc s.bits s).toNat 4 = true →
      (∃ a ∈ accessBytes (readPc s.bits s) 4, a ∈ s.stale) →
      ∃ a ∈ accessBytes (readPc s.bits s) 4, a ∈ s.stale ∧ step s = .refused (.staleFetch a)) ∧
    (s.params.memValid .fetch (readPc s.bits s).toNat 4 = true →
      (∀ a ∈ accessBytes (readPc s.bits s) 4, a ∉ s.stale) →
      (∀ r ∈ opcodeRows, r.accepts s.params.xlen (wordAt s (readPc s.bits s)) = false) →
      ∃ t, step s = .next t ∧
        TrapsWith .illegalInstruction ((wordAt s (readPc s.bits s)).setWidth 64) s t)

/-- For every run of states, one step after another, that stays in a constrained loop on some n bytes (an LR, at most 14
instructions that R263 allows, the SC of the same width to the same address, a conditional branch back to the LR,
placed contiguously; forward only between LR and SC), from a state with legal parameters and anything else: some
state of the run stands at an SC that succeeds, writing its bytes and answering 0. So the oracle of SC cannot fail
every SC of the loop, whatever the free value is. A run that leaves the loop is not promised anything. (R263, R262.) -/
def Obligations.ConstrainedLoopProgress : Prop :=
  ∀ (start : Word) (len addr n : Nat) (run : Nat → State), len ≤ 14 → (run 0).params.wf = true →
    (∀ j, LoopStep start len addr n (run j) (run (j + 1))) →
    ∃ (j : Nat) (i : Instr), instrAt (run j) (readPc (run j).bits (run j)) = some i ∧ ScSucceedsHere i (run j)

/-- exec answers a next state for every instruction and every state. A step answers a fault only where the hart has
stopped, and a refusal only where a byte of the instruction at pc is stale. (R424, R446, R92.) -/
def Obligations.StepStopsNowhereElse : Prop :=
  (∀ (i : Instr) (s : State), ∃ t, exec i s = .next t) ∧
  (∀ (s : State) (f : Fault), step s = .fault f ↔ ∃ t, s.run = .stopped t ∧ f = .hartStopped t) ∧
  (∀ (s : State) (r : Refusal), step s = .refused r →
    s.run = .running ∧ ∃ a ∈ accessBytes (readPc s.bits s) 4, a ∈ s.stale ∧ r = .staleFetch a)

/-- After exec has stopped a running hart on trap tr, delivering it hands tr and exactly the state before the
instruction to the environment, and runs on from the state the environment answers, no LR/SC loop under way. Under
the default environment, and where it answers none, the hart stays stopped. The delivery as a function of the
environment is the form the model chose (log 6), and that no LR/SC loop goes on through it (log 7). (R424, R429,
R446.) -/
def Obligations.TrapDelivery : Prop :=
  ∀ (i : Instr) (s t : State) (tr : Trap), s.run = .running → exec i s = .next t → t.run = .stopped tr →
    deliverTrap eeiStops t = t ∧ step t = .fault (.hartStopped tr) ∧
      ∀ eei : Eei,
        (∀ u, eei tr s = some u → deliverTrap eei t = { u with run := .running, retryLoop := none }) ∧
        (eei tr s = none → deliverTrap eei t = t)

/-- After reset pc is RESET_PC, x0 is zero, the other registers and fcsr hold whatever they were given (the spec leaves
them unspecified), the reservation is none, memory is the image, no byte is stale and the hart runs; the model's own
two fields, for the oracle of SC, are at the values it chose (log 7). (R470.) -/
def Obligations.ResetLeaves : Prop :=
  ∀ (p : Params) (xs fs : Vector Word 32) (fcsr : BitVec 8) (image : Memory),
    let s := State.resetWith p xs fs fcsr image
    s.params = p ∧ s.pc = p.resetPc ∧ readX 64 s x0 = 0 ∧
      (∀ r : XReg, r ≠ x0 → readX 64 s r = xs[r.num.toNat]'r.num.isLt) ∧
      (∀ r : FReg, readF s r = fs[r.num.toNat]'r.num.isLt) ∧ s.fcsr = fcsr ∧
      s.reservation = none ∧ s.mem = image ∧ s.stale = [] ∧ s.run = .running ∧ s.scDraws = 0 ∧ s.retryLoop = none

/-- State.reset, whose parameter and register values are the model's choice (logs 2, 3, 5), meets the invariant; and so
does the state after reset for all legal parameters, register contents that fit XLEN bits and a canonical image
inside the address space. (R470, R471, R5.) -/
def Obligations.ResetMeetsInvariant : Prop :=
  Inv State.reset ∧
    ∀ (p : Params) (xs fs : Vector Word 32) (fcsr : BitVec 8) (image : Memory), p.wf = true →
      (∀ (k : Nat) (h : k < 32), xs[k].toNat < 2 ^ p.xlen.bits) → image.wf = true →
      (∀ c ∈ image, c.1 < 2 ^ p.xlen.bits) → Inv (State.resetWith p xs fs fcsr image)

/-- If a state meets the invariant (legal parameters; pc a multiple of 4 that fits XLEN bits; x0 zero and every register
in XLEN bits; memory canonical and inside the address space; the stale set canonical and inside it; a reservation
that is a naturally aligned set of RES_GRAIN bytes inside it) and step answers a next state, that state meets it
too. (R25, R21, R34, R35, R471.) -/
def Obligations.StepKeepsInvariant : Prop :=
  ∀ s t : State, Inv s → step s = .next t → Inv t

/-- From a running hart, a step that answers a next state either leaves the hart running, or answers exactly the state
before with the hart stopped on a trap: no register, flag, byte of memory or reservation has changed and pc is still
at the raising instruction. (R424, R10.) -/
def Obligations.TrapsWriteNothing : Prop :=
  ∀ s t : State, s.run = .running → step s = .next t →
    t.run = .running ∨ ∃ tr : Trap, t = { s with run := .stopped tr }

/-- If an instruction that is well formed for the XLEN, executed on a running hart, stops it, the cause is in the list
the spec gives for that instruction. (R422, R421.) -/
def Obligations.RaisedExceptionsListed : Prop :=
  ∀ (i : Instr) (s t : State) (tr : Trap), i.wellFormed s.params.xlen = true → s.run = .running →
    exec i s = .next t → t.run = .stopped tr → tr.cause ∈ raisable i

/-- Executed on a running hart: if the hart stops, pc is unchanged; if it runs on and the instruction is no jump or
branch, pc is pc + 4 modulo 2^XLEN; after a conditional branch pc is pc + 4 or pc plus the offset, and after JAL pc
plus the offset. (R24, R165.) -/
def Obligations.PcAdvancesUnlessTransfer : Prop :=
  (∀ (i : Instr) (s t : State), s.run = .running → exec i s = .next t →
    (t.run ≠ .running → t.pc = s.pc) ∧ (t.run = .running → isTransfer i = false → PcAdvances s t)) ∧
  (∀ (rs1 rs2 : XReg) (off : BitVec 13) (i : Instr) (s t : State),
    i ∈ [Instr.beq rs1 rs2 off, .bne rs1 rs2 off, .blt rs1 rs2 off, .bge rs1 rs2 off, .bltu rs1 rs2 off,
      .bgeu rs1 rs2 off] → s.run = .running → exec i s = .next t → t.run = .running →
    PcAdvances s t ∨ t.pc = (BitVec.ofInt s.bits ((readPc s.bits s).toNat + off.toInt)).setWidth 64) ∧
  (∀ (rd : XReg) (off : BitVec 21) (s t : State), s.run = .running → exec (.jal rd off) s = .next t →
    t.run = .running → t.pc = (BitVec.ofInt s.bits ((readPc s.bits s).toNat + off.toInt)).setWidth 64)

/-- Whatever exec does, an integer register that is not the instruction's rd, a floating-point register that is not its
rd, and the parameters are as before; x0 is never changed. (R20, R123, R21, R27.) -/
def Obligations.OnlyDestinationsChange : Prop :=
  ∀ (i : Instr) (s t : State), exec i s = .next t →
    (∀ r : XReg, destX i ≠ some r → readX 64 t r = readX 64 s r) ∧ readX 64 t x0 = 0 ∧
      (∀ r : FReg, destF i ≠ some r → readF t r = readF s r) ∧ t.params = s.params

/-- An instruction that is no store, SC or AMO leaves memory as it was, every byte; and unless it is FENCE.I, it leaves
the stale addresses as they were. (R80, R86, R92.) -/
def Obligations.OnlyStoresWriteMemory : Prop :=
  ∀ (i : Instr) (s t : State), exec i s = .next t → writesMemory i = false →
    t.mem = s.mem ∧ (i ≠ .fenceI → t.stale = s.stale)

/-- Every other instruction, a store or an AMO to the reservation set, FENCE, FENCE.I and a trap among them, leaves the
reservation as it was, and consults no oracle. No instruction at all changes the record of the LR/SC loop, the
model's own field that step keeps (log 7). (R261, R34.) -/
def Obligations.OnlyLrScTouchReservation : Prop :=
  ∀ (i : Instr) (s t : State), exec i s = .next t → t.retryLoop = s.retryLoop ∧
    (touchesReservation i = false → t.reservation = s.reservation ∧ t.scDraws = s.scDraws)

/-- Every instruction but FSCSR, FSFLAGS and FSFLAGSI leaves each accrued flag that was set set; every instruction but
FSCSR, FSRM and FSRMI leaves frm as it was. (R32, R31, R30.) -/
def Obligations.FlagsAreSticky : Prop :=
  ∀ (i : Instr) (s t : State), exec i s = .next t →
    (writesFflags i = false → s.fflags &&& t.fflags = s.fflags) ∧ (writesFrm i = false → t.frm = s.frm)

/-- For any instruction other than FRCSR, FRFLAGS, FSCSR, FSFLAGS and FSFLAGSI, two runs from states that differ only in
fflags answer states that differ in fflags at most: no flag changes a result, a branch or a trap. (R32, R428.) -/
def Obligations.FlagsReadOnlyByAccess : Prop :=
  ∀ (i : Instr) (s t : State) (fl : BitVec 5),
    (∀ (rd rs1 : XReg) (uimm : BitVec 5), i ≠ .frcsr rd ∧ i ≠ .frflags rd ∧ i ≠ .fscsr rd rs1 ∧ i ≠ .fsflags rd rs1 ∧
      i ≠ .fsflagsi rd uimm) →
    exec i s = .next t → ∃ fl' : BitVec 5, exec i (setFflags fl s) = .next (setFflags fl' t)

/-- Reading x0 gives zero in every state and at every width; writing x0 leaves the whole state as it was, so an
instruction with rd = x0 keeps its other effects, as the statements about each instruction say with rd any register;
and after any instruction x0 still reads zero. (R21.) -/
def Obligations.ZeroRegister : Prop :=
  (∀ (w : Nat) (s : State), readX w s x0 = 0) ∧
  (∀ (w : Nat) (v : BitVec w) (s : State), writeX x0 v s = s) ∧
  (∀ (i : Instr) (s t : State), exec i s = .next t → readX s.bits t x0 = 0)

/-- For accesses of 1, 2, 4 and 8 bytes at any 32-bit or 64-bit address: after a write the byte at addr + k is bits 8k+7
: 8k of the value and every other byte is as before; bits 8k+7 : 8k of a value read are the byte at addr + k; and
the mixed-width example of the rule holds at every address and in every memory. (R62.) -/
def Obligations.LittleEndianMemory : Prop :=
  (∀ (w n : Nat) (m : Memory) (addr : BitVec w) (v : BitVec (8 * n)), w ∈ [32, 64] → n ∈ [1, 2, 4, 8] →
    (∀ k < n, (m.writeLE addr n v).read (addr + BitVec.ofNat w k).toNat = v.extractLsb' (8 * k) 8) ∧
    (∀ a ∉ accessBytes addr n, (m.writeLE addr n v).read a = m.read a) ∧
    (∀ k < n, (m.readLE addr n).extractLsb' (8 * k) 8 = m.read (addr + BitVec.ofNat w k).toNat)) ∧
  (∀ (w : Nat) (m : Memory) (a : BitVec w), w ∈ [32, 64] →
    let m' := m.writeLE a 4 (0x11223344 : BitVec 32)
    m'.readLE a 1 = (0x44 : BitVec 8) ∧ m'.readLE (a + 1) 1 = (0x33 : BitVec 8) ∧
      m'.readLE (a + 2) 2 = (0x1122 : BitVec 16) ∧ m'.readLE a 2 = (0x3344 : BitVec 16))

/-- In every state LUI completes with imm * 2^12, imm signed, modulo 2^XLEN in rd, and AUIPC with pc plus that; rd = x0
discards it; nothing else but pc changes. (R163, R164, R119.) -/
def Obligations.UpperImmediates : Prop :=
  ∀ (s : State) (rd : XReg) (imm : BitVec 20),
    Answers (.lui rd imm) s (ResultX rd (BitVec.ofInt s.bits (imm.toInt * 4096))) ∧
    Answers (.auipc rd imm) s (ResultX rd (BitVec.ofInt s.bits ((readPc s.bits s).toNat + imm.toInt * 4096)))

/-- In every state each completes with its result in rd, the immediate sign-extended to XLEN: the sum modulo 2^XLEN, the
signed and the unsigned comparison as 1 or 0, the bitwise results; nothing else but pc changes. (R181, R182, R183,
R184, R185, R186, R116.) -/
def Obligations.ImmediateArithmetic : Prop :=
  ∀ (s : State) (rd rs1 : XReg) (imm : BitVec 12),
    let x := readX s.bits s rs1
    let c : BitVec s.bits := BitVec.ofInt s.bits imm.toInt
    Answers (.addi rd rs1 imm) s (ResultX rd (BitVec.ofInt s.bits (x.toInt + imm.toInt))) ∧
    Answers (.slti rd rs1 imm) s (ResultX rd (if x.toInt < imm.toInt then 1 else 0 : BitVec s.bits)) ∧
    Answers (.sltiu rd rs1 imm) s (ResultX rd (if x.toNat < c.toNat then 1 else 0 : BitVec s.bits)) ∧
    Answers (.xori rd rs1 imm) s (ResultX rd (x ^^^ c)) ∧
    Answers (.ori rd rs1 imm) s (ResultX rd (x ||| c)) ∧
    Answers (.andi rd rs1 imm) s (ResultX rd (x &&& c))

/-- Each completes with the source times 2^shamt modulo 2^XLEN, the unsigned source divided by 2^shamt, or the signed
source divided by 2^shamt and rounded down; the 64-bit rows where XLEN is 64. (R187, R188, R189, R224, R225, R226,
R121.) -/
def Obligations.ImmediateShifts : Prop :=
  (∀ (s : State) (rd rs1 : XReg) (n : BitVec 5),
    let x := readX s.bits s rs1
    Answers (.slli32 rd rs1 n) s (ResultX rd (BitVec.ofNat s.bits (x.toNat * 2 ^ n.toNat))) ∧
    Answers (.srli32 rd rs1 n) s (ResultX rd (BitVec.ofNat s.bits (x.toNat / 2 ^ n.toNat))) ∧
    Answers (.srai32 rd rs1 n) s (ResultX rd (BitVec.ofInt s.bits (x.toInt / 2 ^ n.toNat)))) ∧
  (∀ (s : State) (rd rs1 : XReg) (n : BitVec 6), s.params.xlen = .rv64 →
    let x := readX 64 s rs1
    Answers (.slli64 rd rs1 n) s (ResultX rd (BitVec.ofNat 64 (x.toNat * 2 ^ n.toNat))) ∧
    Answers (.srli64 rd rs1 n) s (ResultX rd (BitVec.ofNat 64 (x.toNat / 2 ^ n.toNat))) ∧
    Answers (.srai64 rd rs1 n) s (ResultX rd (BitVec.ofInt 64 (x.toInt / 2 ^ n.toNat))))

/-- In every state each completes with its result in rd, computed from the values its sources had before: sum and
difference modulo 2^XLEN, signed and unsigned comparison, the bitwise results; nothing else but pc changes. (R190,
R191, R193, R194, R195, R198, R199.) -/
def Obligations.RegisterArithmetic : Prop :=
  ∀ (s : State) (rd rs1 rs2 : XReg),
    let x := readX s.bits s rs1
    let y := readX s.bits s rs2
    Answers (.add rd rs1 rs2) s (ResultX rd (BitVec.ofInt s.bits (x.toInt + y.toInt))) ∧
    Answers (.sub rd rs1 rs2) s (ResultX rd (BitVec.ofInt s.bits (x.toInt - y.toInt))) ∧
    Answers (.slt rd rs1 rs2) s (ResultX rd (if x.toInt < y.toInt then 1 else 0 : BitVec s.bits)) ∧
    Answers (.sltu rd rs1 rs2) s (ResultX rd (if x.toNat < y.toNat then 1 else 0 : BitVec s.bits)) ∧
    Answers (.xor rd rs1 rs2) s (ResultX rd (x ^^^ y)) ∧
    Answers (.or rd rs1 rs2) s (ResultX rd (x ||| y)) ∧
    Answers (.and rd rs1 rs2) s (ResultX rd (x &&& y))

/-- In every state each completes with the shift of x[rs1] by x[rs2] modulo XLEN, as a product or quotient by a power of
two; nothing else but pc changes. (R192, R196, R197.) -/
def Obligations.RegisterShifts : Prop :=
  ∀ (s : State) (rd rs1 rs2 : XReg),
    let x := readX s.bits s rs1
    let n := (readX s.bits s rs2).toNat % s.bits
    Answers (.sll rd rs1 rs2) s (ResultX rd (BitVec.ofNat s.bits (x.toNat * 2 ^ n))) ∧
    Answers (.srl rd rs1 rs2) s (ResultX rd (BitVec.ofNat s.bits (x.toNat / 2 ^ n))) ∧
    Answers (.sra rd rs1 rs2) s (ResultX rd (BitVec.ofInt s.bits (x.toInt / 2 ^ n)))

/-- Where XLEN is 64, each completes with the sign extension of a 32-bit result computed from bits 31:0 of the source;
nothing else but pc changes. (R227, R228, R229, R230, R220.) -/
def Obligations.WordImmediates : Prop :=
  ∀ (s : State) (rd rs1 : XReg) (imm : BitVec 12) (n : BitVec 5), s.params.xlen = .rv64 →
    let x := readX 32 s rs1
    Answers (.addiw rd rs1 imm) s (ResultX rd ((BitVec.ofInt 32 (x.toInt + imm.toInt)).signExtend 64)) ∧
    Answers (.slliw rd rs1 n) s (ResultX rd ((BitVec.ofNat 32 (x.toNat * 2 ^ n.toNat)).signExtend 64)) ∧
    Answers (.srliw rd rs1 n) s (ResultX rd ((BitVec.ofNat 32 (x.toNat / 2 ^ n.toNat)).signExtend 64)) ∧
    Answers (.sraiw rd rs1 n) s (ResultX rd (BitVec.ofInt 64 (x.toInt / 2 ^ n.toNat)))

/-- Where XLEN is 64, each completes with the sign extension of a 32-bit result computed from bits 31:0 of the sources,
shifting by x[rs2] modulo 32; nothing else but pc changes. (R231, R232, R233, R234, R235, R220.) -/
def Obligations.WordRegisters : Prop :=
  ∀ (s : State) (rd rs1 rs2 : XReg), s.params.xlen = .rv64 →
    let x := readX 32 s rs1
    let y := readX 32 s rs2
    let n := (readX 64 s rs2).toNat % 32
    Answers (.addw rd rs1 rs2) s (ResultX rd ((BitVec.ofInt 32 (x.toInt + y.toInt)).signExtend 64)) ∧
    Answers (.subw rd rs1 rs2) s (ResultX rd ((BitVec.ofInt 32 (x.toInt - y.toInt)).signExtend 64)) ∧
    Answers (.sllw rd rs1 rs2) s (ResultX rd ((BitVec.ofNat 32 (x.toNat * 2 ^ n)).signExtend 64)) ∧
    Answers (.srlw rd rs1 rs2) s (ResultX rd ((BitVec.ofNat 32 (x.toNat / 2 ^ n)).signExtend 64)) ∧
    Answers (.sraw rd rs1 rs2) s (ResultX rd (BitVec.ofInt 64 (x.toInt / 2 ^ n)))

/-- The target of JAL is pc plus the offset, that of JALR x[rs1] plus the immediate with bit 0 cleared, from the old
x[rs1]. A target that is a multiple of 4: rd gets pc + 4, pc the target, nothing else changes. Any other: the trap
InstructionAddressMisaligned with the target, nothing written. (R165, R166, R161, R421.) -/
def Obligations.JumpsLinkAndTransfer : Prop :=
  ∀ (s : State) (rd rs1 : XReg) (off : BitVec 21) (imm : BitVec 12),
    let link := readPc s.bits s + 4
    let a := BitVec.ofInt s.bits ((readPc s.bits s).toNat + off.toInt)
    let b := BitVec.ofNat s.bits ((BitVec.ofInt s.bits ((readX s.bits s rs1).toInt + imm.toInt)).toNat / 2 * 2)
    (a.toNat % 4 = 0 → Answers (.jal rd off) s (Jumps rd link a)) ∧
    (a.toNat % 4 ≠ 0 →
      Answers (.jal rd off) s (TrapsWith .instructionAddressMisaligned (a.setWidth 64))) ∧
    (b.toNat % 4 = 0 → Answers (.jalr rd rs1 imm) s (Jumps rd link b)) ∧
    (b.toNat % 4 ≠ 0 →
      Answers (.jalr rd rs1 imm) s (TrapsWith .instructionAddressMisaligned (b.setWidth 64)))

/-- Not taken, a branch only advances pc, whatever its offset. Taken, it sets pc to pc plus the offset and changes
nothing else, or, if that is no multiple of 4, traps InstructionAddressMisaligned with the target. The conditions
compare all XLEN bits: equality, signed or unsigned order. (R167, R168, R169, R170, R171, R172, R161.) -/
def Obligations.BranchesTransferWhenTaken : Prop :=
  ∀ (s : State) (rs1 rs2 : XReg) (off : BitVec 13),
    let x := readX s.bits s rs1
    let y := readX s.bits s rs2
    BranchesIf (.beq rs1 rs2 off) (x = y) off s ∧
    BranchesIf (.bne rs1 rs2 off) (x ≠ y) off s ∧
    BranchesIf (.blt rs1 rs2 off) (x.toInt < y.toInt) off s ∧
    BranchesIf (.bge rs1 rs2 off) (y.toInt ≤ x.toInt) off s ∧
    BranchesIf (.bltu rs1 rs2 off) (x.toNat < y.toNat) off s ∧
    BranchesIf (.bgeu rs1 rs2 off) (y.toNat ≤ x.toNat) off s

/-- The effective address is x[rs1] plus the signed immediate modulo 2^XLEN. Where the access is aligned and valid, each
load completes with the bytes of memory at that address, lowest address in the lowest bits, sign- or zero-extended,
in rd (rd = x0 discards it); nothing else but pc changes. LWU and LD where XLEN is 64. (R162, R173, R174, R175,
R176, R177, R221, R222, R60, R62.) -/
def Obligations.LoadsExtend : Prop :=
  ∀ (s : State) (rd rs1 : XReg) (imm : BitVec 12),
    let a := effAddr s rs1 imm
    a = BitVec.ofInt s.bits ((readX s.bits s rs1).toInt + imm.toInt) ∧
    (AccessOk s [.load] a 1 → Answers (.lb rd rs1 imm) s (ResultX rd (BitVec.ofInt s.bits (byteAt s a 0).toInt)) ∧
      Answers (.lbu rd rs1 imm) s (ResultX rd (BitVec.ofNat s.bits (byteAt s a 0).toNat))) ∧
    (AccessOk s [.load] a 2 → Answers (.lh rd rs1 imm) s (ResultX rd (BitVec.ofInt s.bits (halfAt s a).toInt)) ∧
      Answers (.lhu rd rs1 imm) s (ResultX rd (BitVec.ofNat s.bits (halfAt s a).toNat))) ∧
    (AccessOk s [.load] a 4 → Answers (.lw rd rs1 imm) s (ResultX rd (BitVec.ofInt s.bits (wordAt s a).toInt)) ∧
      (s.params.xlen = .rv64 →
        Answers (.lwu rd rs1 imm) s (ResultX rd (BitVec.ofNat s.bits (wordAt s a).toNat)))) ∧
    (AccessOk s [.load] a 8 → s.params.xlen = .rv64 → Answers (.ld rd rs1 imm) s (ResultX rd (doubleAt s a)))

/-- Where the access is aligned and valid, each store writes the low 1, 2, 4 or 8 bytes of x[rs2] at the address effAddr
computes, which is x[rs1] plus the signed immediate modulo 2^XLEN, byte k at that address plus k; every other byte,
every register, fcsr and the reservation are as before, pc advances, and just those bytes become stale for fetches.
SD where XLEN is 64. (R162, R178, R179, R180, R223, R60, R62, R92, R261.) -/
def Obligations.StoresWriteLowBytes : Prop :=
  ∀ (s : State) (rs1 rs2 : XReg) (imm : BitVec 12),
    let a := effAddr s rs1 imm
    a = BitVec.ofInt s.bits ((readX s.bits s rs1).toInt + imm.toInt) ∧
    (AccessOk s [.store] a 1 → Answers (.sb rs1 rs2 imm) s (StoresOnly a 1 (readX 8 s rs2))) ∧
    (AccessOk s [.store] a 2 → Answers (.sh rs1 rs2 imm) s (StoresOnly a 2 (readX 16 s rs2))) ∧
    (AccessOk s [.store] a 4 → Answers (.sw rs1 rs2 imm) s (StoresOnly a 4 (readX 32 s rs2))) ∧
    (AccessOk s [.store] a 8 → s.params.xlen = .rv64 →
      Answers (.sd rs1 rs2 imm) s (StoresOnly a 8 (readX 64 s rs2)))

/-- Every load and store, floating-point ones among them: a misaligned address raises the misaligned exception whatever
mem_valid says, an aligned one that mem_valid refuses raises the access fault, each with the effective address as
info and no other change. One-byte accesses are never misaligned. (R64, R66, R162, R421, R424.) -/
def Obligations.AccessTraps : Prop :=
  ∀ (s : State) (rd rs1 rs2 : XReg) (fr : FReg) (imm : BitVec 12),
    let a := effAddr s rs1 imm
    let loads (i : Instr) (n : Nat) := AccessRaises i s .loadAddressMisaligned .loadAccessFault [.load] a n
    let stores (i : Instr) (n : Nat) := AccessRaises i s .storeAMOAddressMisaligned .storeAMOAccessFault [.store] a n
    loads (.lb rd rs1 imm) 1 ∧ loads (.lbu rd rs1 imm) 1 ∧ loads (.lh rd rs1 imm) 2 ∧ loads (.lhu rd rs1 imm) 2 ∧
      loads (.lw rd rs1 imm) 4 ∧ loads (.flw fr rs1 imm) 4 ∧ loads (.fld fr rs1 imm) 8 ∧
      stores (.sb rs1 rs2 imm) 1 ∧ stores (.sh rs1 rs2 imm) 2 ∧ stores (.sw rs1 rs2 imm) 4 ∧
      stores (.fsw rs1 fr imm) 4 ∧ stores (.fsd rs1 fr imm) 8 ∧
      (s.params.xlen = .rv64 →
        loads (.lwu rd rs1 imm) 4 ∧ loads (.ld rd rs1 imm) 8 ∧ stores (.sd rs1 rs2 imm) 8)

/-- For all pred and succ FENCE changes only pc (one hart: R86). FENCE.I changes pc and empties the set of bytes stored
to since the last FENCE.I, so a step after it is never refused. (R200, R201, R86, R92.) -/
def Obligations.FencesAdvance : Prop :=
  ∀ (s : State) (pred succ : BitVec 4),
    Answers (.fence pred succ) s OnlyAdvances ∧
    Answers .fenceI s fun s t => SyncsFetch s t ∧ ∀ r, step t ≠ .refused r

/-- In every state ECALL answers the trap EnvironmentCall with info 0 and EBREAK the trap Breakpoint with pc; nothing
else changes, pc stays; and these two causes, and no others, are the normal ends of a run. (R202, R203, R421, R424,
R446.) -/
def Obligations.EnvironmentTraps : Prop :=
  (∀ s : State, Answers .ecall s (TrapsWith .environmentCall 0) ∧ Answers .ebreak s (TrapsWith .breakpoint s.pc)) ∧
  ∀ t : Trap, t.isNormalEnd = true ↔ t.cause = .environmentCall ∨ t.cause = .breakpoint

/-- In every state MUL completes with the product modulo 2^XLEN and the three high forms with the product, signed by
signed, signed by unsigned, unsigned by unsigned, divided by 2^XLEN and rounded down; nothing else but pc changes,
and nothing is raised. (R240, R241, R242, R243, R244.) -/
def Obligations.Multiplies : Prop :=
  ∀ (s : State) (rd rs1 rs2 : XReg),
    let x := readX s.bits s rs1
    let y := readX s.bits s rs2
    Answers (.mul rd rs1 rs2) s (ResultX rd (BitVec.ofInt s.bits (x.toInt * y.toInt))) ∧
    Answers (.mulh rd rs1 rs2) s (ResultX rd (BitVec.ofInt s.bits (x.toInt * y.toInt / 2 ^ s.bits))) ∧
    Answers (.mulhsu rd rs1 rs2) s (ResultX rd (BitVec.ofInt s.bits (x.toInt * y.toNat / 2 ^ s.bits))) ∧
    Answers (.mulhu rd rs1 rs2) s (ResultX rd (BitVec.ofNat s.bits (x.toNat * y.toNat / 2 ^ s.bits)))

/-- Divisor 0: all ones and the dividend. Signed overflow: the dividend and 0. Otherwise the quotient q and remainder r
with dividend = divisor * q + r, |r| < |divisor| and r of the dividend's sign; for the unsigned forms the natural
quotient and remainder. Every case completes and changes only rd and pc. (R240, R245, R246, R247, R248, R428.) -/
def Obligations.Divides : Prop :=
  ∀ (s : State) (rd rs1 rs2 : XReg),
    let x := readX s.bits s rs1
    let y := readX s.bits s rs2
    let overflow := x.toInt = -2 ^ (s.bits - 1) ∧ y.toInt = -1
    (y.toNat = 0 →
      Answers (.div rd rs1 rs2) s (ResultX rd (BitVec.ofInt s.bits (-1))) ∧
      Answers (.divu rd rs1 rs2) s (ResultX rd (BitVec.ofNat s.bits (2 ^ s.bits - 1))) ∧
      Answers (.rem rd rs1 rs2) s (ResultX rd x) ∧ Answers (.remu rd rs1 rs2) s (ResultX rd x)) ∧
    (overflow → Answers (.div rd rs1 rs2) s (ResultX rd x) ∧ Answers (.rem rd rs1 rs2) s (ResultX rd (0 : BitVec s.bits))) ∧
    (y.toNat ≠ 0 → ¬ overflow → ∃ q r : Int, QuotRem x.toInt y.toInt q r ∧
      -2 ^ (s.bits - 1) ≤ q ∧ q < 2 ^ (s.bits - 1) ∧
      Answers (.div rd rs1 rs2) s (ResultX rd (BitVec.ofInt s.bits q)) ∧
      Answers (.rem rd rs1 rs2) s (ResultX rd (BitVec.ofInt s.bits r))) ∧
    (y.toNat ≠ 0 →
      Answers (.divu rd rs1 rs2) s (ResultX rd (BitVec.ofNat s.bits (x.toNat / y.toNat))) ∧
      Answers (.remu rd rs1 rs2) s (ResultX rd (BitVec.ofNat s.bits (x.toNat % y.toNat))))

/-- Where XLEN is 64, each completes with the sign extension of the 32-bit product, quotient or remainder of bits 31:0
of the sources, with the special cases of R240 at width 32 (the unsigned forms sign-extended too); nothing else but
pc changes. (R240, R249, R250, R251, R252, R253.) -/
def Obligations.WordMultiplyDivide : Prop :=
  ∀ (s : State) (rd rs1 rs2 : XReg), s.params.xlen = .rv64 →
    let x := readX 32 s rs1
    let y := readX 32 s rs2
    let overflow := x.toInt = -2 ^ 31 ∧ y.toInt = -1
    Answers (.mulw rd rs1 rs2) s (ResultX rd ((BitVec.ofInt 32 (x.toInt * y.toInt)).signExtend 64)) ∧
    (y.toNat = 0 →
      Answers (.divw rd rs1 rs2) s (ResultX rd (BitVec.ofInt 64 (-1))) ∧
      Answers (.divuw rd rs1 rs2) s (ResultX rd (BitVec.ofInt 64 (-1))) ∧
      Answers (.remw rd rs1 rs2) s (ResultX rd (BitVec.ofInt 64 x.toInt)) ∧
      Answers (.remuw rd rs1 rs2) s (ResultX rd (BitVec.ofInt 64 x.toInt))) ∧
    (overflow → Answers (.divw rd rs1 rs2) s (ResultX rd (BitVec.ofInt 64 (-2 ^ 31))) ∧
      Answers (.remw rd rs1 rs2) s (ResultX rd (0 : BitVec 64))) ∧
    (y.toNat ≠ 0 → ¬ overflow → ∃ q r : Int, QuotRem x.toInt y.toInt q r ∧
      Answers (.divw rd rs1 rs2) s (ResultX rd (BitVec.ofInt 64 q)) ∧
      Answers (.remw rd rs1 rs2) s (ResultX rd (BitVec.ofInt 64 r))) ∧
    (y.toNat ≠ 0 →
      Answers (.divuw rd rs1 rs2) s (ResultX rd ((BitVec.ofNat 32 (x.toNat / y.toNat)).signExtend 64)) ∧
      Answers (.remuw rd rs1 rs2) s (ResultX rd ((BitVec.ofNat 32 (x.toNat % y.toNat)).signExtend 64)))

/-- With legal parameters, where the access is aligned and valid (for the kinds log 9 names), LR completes with the
sign-extended value in rd and the reservation set to the naturally aligned RES_GRAIN bytes that contain the access,
whatever the reservation was; nothing else but pc changes; aq and rl change nothing. LR.D where XLEN is 64. (R264,
R275, R260, R261, R34.) -/
def Obligations.LoadReservedReserves : Prop :=
  ∀ (s : State) (aq rl : Bool) (rd rs1 : XReg), s.params.wf = true →
    let a := readX s.bits s rs1
    (AccessOk s lrKinds a 4 →
      Answers (.lrW aq rl rd rs1) s (Reserves rd (BitVec.ofInt s.bits (wordAt s a).toInt) a 4)) ∧
    (AccessOk s lrKinds a 8 → s.params.xlen = .rv64 →
      Answers (.lrD aq rl rd rs1) s (Reserves rd (doubleAt s a) a 8))

/-- Where the access is aligned and valid, an SC without a reservation that holds its bytes fails (1 in rd, nothing
written); with one it succeeds (0 in rd, the low bytes of x[rs2] written) if spurious failure is ruled out; else it
succeeds once the row of tries it belongs to, those of the LR/SC loop the hart is in or this one alone, has had the
failures that the free value gives that row (log 7). Every outcome ends the reservation and changes nothing else but
pc. (R262, R261, R265, R276, R260.) -/
def Obligations.StoreConditionalOutcomes : Prop :=
  ∀ (s : State) (aq rl : Bool) (rd rs1 rs2 : XReg),
    let a := readX s.bits s rs1
    (AccessOk s scKinds a 4 → ScOutcome (.scW aq rl rd rs1 rs2) rd a 4 (readX 32 s rs2) s) ∧
    (AccessOk s scKinds a 8 → s.params.xlen = .rv64 → ScOutcome (.scD aq rl rd rs1 rs2) rd a 8 (readX 64 s rs2) s)

/-- Where the access is aligned and valid, each AMO completes with the old value, sign-extended, in rd and its operation
of the old value and x[rs2] (swap, sum modulo 2^n, bitwise, signed and unsigned minimum and maximum) in the 4 or 8
bytes at x[rs1]; every other byte, the other registers, fcsr and the reservation are as before; aq and rl change
nothing. The .D forms where XLEN is 64. (R260, R261, R266, 43_a_atomics.md R267 to R274, 43_a_atomics.md R277 to
R285.) -/
def Obligations.AtomicUpdates : Prop :=
  ∀ (s : State) (aq rl : Bool) (rd rs1 rs2 : XReg),
    let a := readX s.bits s rs1
    (AccessOk s amoKinds a 4 →
      let t : BitVec 32 := wordAt s a
      let v : BitVec 32 := readX 32 s rs2
      Answers (.amoswapW aq rl rd rs1 rs2) s (AmoUpdates rd a 4 t v) ∧
      Answers (.amoaddW aq rl rd rs1 rs2) s (AmoUpdates rd a 4 t (BitVec.ofInt 32 (t.toInt + v.toInt))) ∧
      Answers (.amoxorW aq rl rd rs1 rs2) s (AmoUpdates rd a 4 t (t ^^^ v)) ∧
      Answers (.amoorW aq rl rd rs1 rs2) s (AmoUpdates rd a 4 t (t ||| v)) ∧
      Answers (.amoandW aq rl rd rs1 rs2) s (AmoUpdates rd a 4 t (t &&& v)) ∧
      Answers (.amominW aq rl rd rs1 rs2) s (AmoUpdates rd a 4 t (BitVec.ofInt 32 (min t.toInt v.toInt))) ∧
      Answers (.amomaxW aq rl rd rs1 rs2) s (AmoUpdates rd a 4 t (BitVec.ofInt 32 (max t.toInt v.toInt))) ∧
      Answers (.amominuW aq rl rd rs1 rs2) s (AmoUpdates rd a 4 t (BitVec.ofNat 32 (min t.toNat v.toNat))) ∧
      Answers (.amomaxuW aq rl rd rs1 rs2) s (AmoUpdates rd a 4 t (BitVec.ofNat 32 (max t.toNat v.toNat)))) ∧
    (AccessOk s amoKinds a 8 → s.params.xlen = .rv64 →
      let t : BitVec 64 := doubleAt s a
      let v : BitVec 64 := readX 64 s rs2
      Answers (.amoswapD aq rl rd rs1 rs2) s (AmoUpdates rd a 8 t v) ∧
      Answers (.amoaddD aq rl rd rs1 rs2) s (AmoUpdates rd a 8 t (BitVec.ofInt 64 (t.toInt + v.toInt))) ∧
      Answers (.amoxorD aq rl rd rs1 rs2) s (AmoUpdates rd a 8 t (t ^^^ v)) ∧
      Answers (.amoorD aq rl rd rs1 rs2) s (AmoUpdates rd a 8 t (t ||| v)) ∧
      Answers (.amoandD aq rl rd rs1 rs2) s (AmoUpdates rd a 8 t (t &&& v)) ∧
      Answers (.amominD aq rl rd rs1 rs2) s (AmoUpdates rd a 8 t (BitVec.ofInt 64 (min t.toInt v.toInt))) ∧
      Answers (.amomaxD aq rl rd rs1 rs2) s (AmoUpdates rd a 8 t (BitVec.ofInt 64 (max t.toInt v.toInt))) ∧
      Answers (.amominuD aq rl rd rs1 rs2) s (AmoUpdates rd a 8 t (BitVec.ofNat 64 (min t.toNat v.toNat))) ∧
      Answers (.amomaxuD aq rl rd rs1 rs2) s (AmoUpdates rd a 8 t (BitVec.ofNat 64 (max t.toNat v.toNat))))

/-- LR raises the load exceptions, SC and every AMO the store/AMO ones; misaligned first, whatever mem_valid says;
x[rs1] is the info; an SC raises whether or not it would have succeeded; nothing else changes, the reservation
included. The kinds of access each needs are those of log 9. The .D forms where XLEN is 64. (R65, R66, R260, R421,
R424.) -/
def Obligations.AtomicTraps : Prop :=
  ∀ (s : State) (aq rl : Bool) (rd rs1 rs2 : XReg),
    let a := readX s.bits s rs1
    let traps (kinds : List AccessKind) (n : Nat) (i : Instr) :=
      AccessRaises i s .storeAMOAddressMisaligned .storeAMOAccessFault kinds a n
    AccessRaises (.lrW aq rl rd rs1) s .loadAddressMisaligned .loadAccessFault lrKinds a 4 ∧
    traps scKinds 4 (.scW aq rl rd rs1 rs2) ∧
    (∀ i ∈ [Instr.amoswapW aq rl rd rs1 rs2, .amoaddW aq rl rd rs1 rs2, .amoxorW aq rl rd rs1 rs2,
        .amoorW aq rl rd rs1 rs2, .amoandW aq rl rd rs1 rs2, .amominW aq rl rd rs1 rs2,
        .amomaxW aq rl rd rs1 rs2, .amominuW aq rl rd rs1 rs2, .amomaxuW aq rl rd rs1 rs2], traps amoKinds 4 i) ∧
    (s.params.xlen = .rv64 →
      AccessRaises (.lrD aq rl rd rs1) s .loadAddressMisaligned .loadAccessFault lrKinds a 8 ∧
      traps scKinds 8 (.scD aq rl rd rs1 rs2) ∧
      (∀ i ∈ [Instr.amoswapD aq rl rd rs1 rs2, .amoaddD aq rl rd rs1 rs2, .amoxorD aq rl rd rs1 rs2,
        .amoorD aq rl rd rs1 rs2, .amoandD aq rl rd rs1 rs2, .amominD aq rl rd rs1 rs2,
        .amomaxD aq rl rd rs1 rs2, .amominuD aq rl rd rs1 rs2, .amomaxuD aq rl rd rs1 rs2], traps amoKinds 8 i))

/-- Where the access is aligned and valid: FLW writes the little-endian word boxed with 32 ones and FLD the doubleword
to f[rd]; FSW stores f[rs2][31:0] whatever the upper half holds and FSD all 64 bits, at the address effAddr
computes; no flag changes; both D forms exist for both XLEN values. (R310, R311, R372, R373, R303, R302, R60, R62.) -/
def Obligations.FloatLoadsStores : Prop :=
  ∀ (s : State) (rd rs2 : FReg) (rs1 : XReg) (imm : BitVec 12),
    let a := effAddr s rs1 imm
    (AccessOk s [.load] a 4 → Answers (.flw rd rs1 imm) s (ResultF rd (BitVec.allOnes 32 ++ wordAt s a))) ∧
    (AccessOk s [.load] a 8 → Answers (.fld rd rs1 imm) s (ResultF rd (doubleAt s a))) ∧
    (AccessOk s [.store] a 4 →
      Answers (.fsw rs1 rs2 imm) s (StoresOnly a 4 (BitVec.ofNat 32 ((readF s rs2).toNat % 2 ^ 32)))) ∧
    (AccessOk s [.store] a 8 → Answers (.fsd rs1 rs2 imm) s (StoresOnly a 8 (readF s rs2)))

/-- For every instruction that has an rm field, the exact conversions among them: if rm is 101 or 110, or 111 while frm
is 101, 110 or 111, it answers the trap IllegalInstruction with its own word, and sets no flag. (R301, R134, R424,
R421.) -/
def Obligations.ReservedRoundingModes : Prop :=
  ∀ (s : State) (i : Instr) (rm : BitVec 3), rmOf i = some rm → ReservedMode rm s.frm →
    Answers i s (TrapsWith .illegalInstruction ((encode i).setWidth 64))

/-- S(i) is f[i][31:0] if f[i][63:32] is all ones and 0x7FC00000 otherwise; a boxed value reads back as it was. (R302,
R303.) -/
def Obligations.NaNBoxing : Prop :=
  (∀ (s : State) (r : FReg),
    ((readF s r).toNat / 2 ^ 32 = 2 ^ 32 - 1 → readS s r = BitVec.ofNat 32 ((readF s r).toNat % 2 ^ 32)) ∧
    ((readF s r).toNat / 2 ^ 32 ≠ 2 ^ 32 - 1 → readS s r = 0x7FC00000)) ∧
  ∀ (s : State) (r : FReg) (v : BitVec 32),
    (box v).toNat = (2 ^ 32 - 1) * 2 ^ 32 + v.toNat ∧ readS (writeF r (box v) s) r = v

/-- Under a legal effective mode, static or from frm, FADD.S, FSUB.S, FMUL.S, FDIV.S, FSQRT.S and the four fused
multiply-adds complete with the boxed result of their operation on the unboxed operands in f[rd] and its flags ORed
into fflags; frm, every other register, memory and the reservation are as before. SumsProductsRoundedOnce,
QuotientsRootsRoundedOnce, NaNRules and InfinitiesAndZeros say what those results are. (R312, R313, R314, R315,
R316, R317, R318, R319, R325, R301, R303, R32.) -/
def Obligations.SingleArithmetic : Prop :=
  ∀ (s : State) (rm : BitVec 3) (mode : RoundingMode) (rd rs1 rs2 rs3 : FReg), EffectiveMode rm s.frm mode →
    let a := readS s rs1
    let b := readS s rs2
    let c := readS s rs3
    Answers (.faddS rm rd rs1 rs2) s (ResultFFlags rd (BitVec.allOnes 32 ++ (fAdd binary32 mode a b).1) (fAdd binary32 mode a b).2) ∧
    Answers (.fsubS rm rd rs1 rs2) s (ResultFFlags rd (BitVec.allOnes 32 ++ (fSub binary32 mode a b).1) (fSub binary32 mode a b).2) ∧
    Answers (.fmulS rm rd rs1 rs2) s (ResultFFlags rd (BitVec.allOnes 32 ++ (fMul binary32 mode a b).1) (fMul binary32 mode a b).2) ∧
    Answers (.fdivS rm rd rs1 rs2) s (ResultFFlags rd (BitVec.allOnes 32 ++ (fDiv binary32 mode a b).1) (fDiv binary32 mode a b).2) ∧
    Answers (.fsqrtS rm rd rs1) s (ResultFFlags rd (BitVec.allOnes 32 ++ (fSqrt binary32 mode a).1) (fSqrt binary32 mode a).2) ∧
    Answers (.fmaddS rm rd rs1 rs2 rs3) s
      (ResultFFlags rd (BitVec.allOnes 32 ++ (fMulAdd binary32 mode false false a b c).1) (fMulAdd binary32 mode false false a b c).2) ∧
    Answers (.fmsubS rm rd rs1 rs2 rs3) s
      (ResultFFlags rd (BitVec.allOnes 32 ++ (fMulAdd binary32 mode false true a b c).1) (fMulAdd binary32 mode false true a b c).2) ∧
    Answers (.fnmsubS rm rd rs1 rs2 rs3) s
      (ResultFFlags rd (BitVec.allOnes 32 ++ (fMulAdd binary32 mode true false a b c).1) (fMulAdd binary32 mode true false a b c).2) ∧
    Answers (.fnmaddS rm rd rs1 rs2 rs3) s
      (ResultFFlags rd (BitVec.allOnes 32 ++ (fMulAdd binary32 mode true true a b c).1) (fMulAdd binary32 mode true true a b c).2)

/-- Under a legal effective mode, static or from frm, FADD.D, FSUB.D, FMUL.D, FDIV.D, FSQRT.D and the four fused
multiply-adds complete with the result of their operation on the 64-bit operands in f[rd] and its flags ORed into
fflags; frm, every other register, memory and the reservation are as before. SumsProductsRoundedOnce,
QuotientsRootsRoundedOnce, NaNRules and InfinitiesAndZeros say what those results are. (R374, R375, R376, R377,
R378, R379, R380, R381, R387, R301, R370, R32.) -/
def Obligations.DoubleArithmetic : Prop :=
  ∀ (s : State) (rm : BitVec 3) (mode : RoundingMode) (rd rs1 rs2 rs3 : FReg), EffectiveMode rm s.frm mode →
    let a := readF s rs1
    let b := readF s rs2
    let c := readF s rs3
    Answers (.faddD rm rd rs1 rs2) s (ResultFFlags rd (fAdd binary64 mode a b).1 (fAdd binary64 mode a b).2) ∧
    Answers (.fsubD rm rd rs1 rs2) s (ResultFFlags rd (fSub binary64 mode a b).1 (fSub binary64 mode a b).2) ∧
    Answers (.fmulD rm rd rs1 rs2) s (ResultFFlags rd (fMul binary64 mode a b).1 (fMul binary64 mode a b).2) ∧
    Answers (.fdivD rm rd rs1 rs2) s (ResultFFlags rd (fDiv binary64 mode a b).1 (fDiv binary64 mode a b).2) ∧
    Answers (.fsqrtD rm rd rs1) s (ResultFFlags rd (fSqrt binary64 mode a).1 (fSqrt binary64 mode a).2) ∧
    Answers (.fmaddD rm rd rs1 rs2 rs3) s
      (ResultFFlags rd (fMulAdd binary64 mode false false a b c).1 (fMulAdd binary64 mode false false a b c).2) ∧
    Answers (.fmsubD rm rd rs1 rs2 rs3) s
      (ResultFFlags rd (fMulAdd binary64 mode false true a b c).1 (fMulAdd binary64 mode false true a b c).2) ∧
    Answers (.fnmsubD rm rd rs1 rs2 rs3) s
      (ResultFFlags rd (fMulAdd binary64 mode true false a b c).1 (fMulAdd binary64 mode true false a b c).2) ∧
    Answers (.fnmaddD rm rd rs1 rs2 rs3) s
      (ResultFFlags rd (fMulAdd binary64 mode true true a b c).1 (fMulAdd binary64 mode true true a b c).2)

/-- For both precisions each completes with all bits of the first operand but the sign, and as sign that of the second,
its complement, or the exclusive or of both; no NaN is canonicalised beyond unboxing; fcsr is unchanged. (R320,
R321, R322, R382, R383, R384, R305.) -/
def Obligations.SignInjection : Prop :=
  (∀ (s : State) (rd rs1 rs2 : FReg),
    let a := readS s rs1
    let b := readS s rs2
    let with32 (i : Instr) (sign : Bool) := ∃ r : BitVec 32, (∀ k < 31, r.getLsbD k = a.getLsbD k) ∧
      r.getLsbD 31 = sign ∧ Answers i s (ResultF rd (BitVec.allOnes 32 ++ r))
    with32 (.fsgnjS rd rs1 rs2) (b.getLsbD 31) ∧ with32 (.fsgnjnS rd rs1 rs2) (!b.getLsbD 31) ∧
      with32 (.fsgnjxS rd rs1 rs2) (a.getLsbD 31 != b.getLsbD 31)) ∧
  (∀ (s : State) (rd rs1 rs2 : FReg),
    let a := readF s rs1
    let b := readF s rs2
    let with64 (i : Instr) (sign : Bool) := ∃ r : BitVec 64, (∀ k < 63, r.getLsbD k = a.getLsbD k) ∧
      r.getLsbD 63 = sign ∧ Answers i s (ResultF rd r)
    with64 (.fsgnjD rd rs1 rs2) (b.getLsbD 63) ∧ with64 (.fsgnjnD rd rs1 rs2) (!b.getLsbD 63) ∧
      with64 (.fsgnjxD rd rs1 rs2) (a.getLsbD 63 != b.getLsbD 63))

/-- For both precisions each completes with the lesser (greater) operand, compared as numbers with -0 below +0; the
other operand for one NaN; the canonical NaN for two; NV, and only NV, for a signaling NaN operand; frm and
everything else unchanged. (R323, R324, R385, R386, R305.) -/
def Obligations.FloatMinMax : Prop :=
  ∀ (s : State) (rd rs1 rs2 : FReg),
    (∃ r, Extreme binary32 true (readS s rs1) (readS s rs2) r ∧
      Answers (.fminS rd rs1 rs2) s (ResultFFlags rd (BitVec.allOnes 32 ++ r.1) r.2)) ∧
    (∃ r, Extreme binary32 false (readS s rs1) (readS s rs2) r ∧
      Answers (.fmaxS rd rs1 rs2) s (ResultFFlags rd (BitVec.allOnes 32 ++ r.1) r.2)) ∧
    (∃ r, Extreme binary64 true (readF s rs1) (readF s rs2) r ∧
      Answers (.fminD rd rs1 rs2) s (ResultFFlags rd r.1 r.2)) ∧
    (∃ r, Extreme binary64 false (readF s rs1) (readF s rs2) r ∧
      Answers (.fmaxD rd rs1 rs2) s (ResultFFlags rd r.1 r.2))

/-- For both precisions: with a NaN operand the comparisons answer 0, FLE and FLT with NV, FEQ with NV for a signaling
NaN only; on numbers they answer 1 or 0 by numerical order, -0 equal to +0, with no flag. FCLASS answers the mask
with the one bit of the operand's class and touches no flag. (R326, R327, R328, R334, R388, R389, R390, R395, R305.) -/
def Obligations.FloatCompareClassify : Prop :=
  (∀ (s : State) (rd : XReg) (rs1 rs2 : FReg),
    let a := readS s rs1
    let b := readS s rs2
    let nan := isNaN binary32 a || isNaN binary32 b
    let signaling := isSignaling binary32 a || isSignaling binary32 b
    let answers (i : Instr) (v : Nat) (f : Flags) := Answers i s (ResultXFlags rd (BitVec.ofNat s.bits v) f)
    (nan = true → answers (.fleS rd rs1 rs2) 0 { nv := true } ∧ answers (.fltS rd rs1 rs2) 0 { nv := true } ∧
      answers (.feqS rd rs1 rs2) 0 { nv := signaling }) ∧
    (nan = false →
      (Less binary32 a b → answers (.fleS rd rs1 rs2) 1 {} ∧ answers (.fltS rd rs1 rs2) 1 {} ∧
        answers (.feqS rd rs1 rs2) 0 {}) ∧
      (Less binary32 b a → answers (.fleS rd rs1 rs2) 0 {} ∧ answers (.fltS rd rs1 rs2) 0 {} ∧
        answers (.feqS rd rs1 rs2) 0 {}) ∧
      (¬ Less binary32 a b → ¬ Less binary32 b a →
        answers (.fleS rd rs1 rs2) 1 {} ∧ answers (.fltS rd rs1 rs2) 0 {} ∧
        answers (.feqS rd rs1 rs2) 1 {})) ∧
    Answers (.fclassS rd rs1) s (ResultX rd (BitVec.ofNat s.bits (2 ^ classNumber binary32 a)))) ∧
  (∀ (s : State) (rd : XReg) (rs1 rs2 : FReg),
    let a := readF s rs1
    let b := readF s rs2
    let nan := isNaN binary64 a || isNaN binary64 b
    let signaling := isSignaling binary64 a || isSignaling binary64 b
    let answers (i : Instr) (v : Nat) (f : Flags) := Answers i s (ResultXFlags rd (BitVec.ofNat s.bits v) f)
    (nan = true → answers (.fleD rd rs1 rs2) 0 { nv := true } ∧ answers (.fltD rd rs1 rs2) 0 { nv := true } ∧
      answers (.feqD rd rs1 rs2) 0 { nv := signaling }) ∧
    (nan = false →
      (Less binary64 a b → answers (.fleD rd rs1 rs2) 1 {} ∧ answers (.fltD rd rs1 rs2) 1 {} ∧
        answers (.feqD rd rs1 rs2) 0 {}) ∧
      (Less binary64 b a → answers (.fleD rd rs1 rs2) 0 {} ∧ answers (.fltD rd rs1 rs2) 0 {} ∧
        answers (.feqD rd rs1 rs2) 0 {}) ∧
      (¬ Less binary64 a b → ¬ Less binary64 b a →
        answers (.fleD rd rs1 rs2) 1 {} ∧ answers (.fltD rd rs1 rs2) 0 {} ∧
        answers (.feqD rd rs1 rs2) 1 {})) ∧
    Answers (.fclassD rd rs1) s (ResultX rd (BitVec.ofNat s.bits (2 ^ classNumber binary64 a))))

/-- Under a legal effective mode each completes with the operand rounded to an integer in that mode, NX exactly when
that changed it; out of range, infinite and NaN operands give the bound R306 names with NV alone; W and WU results
are sign-extended from 32 bits. The L and LU forms where XLEN is 64. (R306.) -/
def Obligations.FloatToInteger : Prop :=
  ∀ (s : State) (rm : BitVec 3) (mode : RoundingMode) (rd : XReg) (rs1 : FReg), EffectiveMode rm s.frm mode →
    (∃ (v : Int) (f : Flags), ConvertsToInt binary32 mode (readS s rs1) (-2 ^ 31) (2 ^ 31 - 1) v f ∧
      Answers (.fcvtWS rm rd rs1) s (ResultXFlags rd (BitVec.ofInt s.bits v) f)) ∧
    (∃ (v : Int) (f : Flags), ConvertsToInt binary32 mode (readS s rs1) 0 (2 ^ 32 - 1) v f ∧
      Answers (.fcvtWuS rm rd rs1) s (ResultXFlags rd ((BitVec.ofInt 32 v).signExtend s.bits) f)) ∧
    (∃ (v : Int) (f : Flags), ConvertsToInt binary64 mode (readF s rs1) (-2 ^ 31) (2 ^ 31 - 1) v f ∧
      Answers (.fcvtWD rm rd rs1) s (ResultXFlags rd (BitVec.ofInt s.bits v) f)) ∧
    (∃ (v : Int) (f : Flags), ConvertsToInt binary64 mode (readF s rs1) 0 (2 ^ 32 - 1) v f ∧
      Answers (.fcvtWuD rm rd rs1) s (ResultXFlags rd ((BitVec.ofInt 32 v).signExtend s.bits) f)) ∧
    (s.params.xlen = .rv64 →
    (∃ (v : Int) (f : Flags), ConvertsToInt binary32 mode (readS s rs1) (-2 ^ 63) (2 ^ 63 - 1) v f ∧
      Answers (.fcvtLS rm rd rs1) s (ResultXFlags rd (BitVec.ofInt 64 v) f)) ∧
    (∃ (v : Int) (f : Flags), ConvertsToInt binary32 mode (readS s rs1) 0 (2 ^ 64 - 1) v f ∧
      Answers (.fcvtLuS rm rd rs1) s (ResultXFlags rd (BitVec.ofInt 64 v) f)) ∧
    (∃ (v : Int) (f : Flags), ConvertsToInt binary64 mode (readF s rs1) (-2 ^ 63) (2 ^ 63 - 1) v f ∧
      Answers (.fcvtLD rm rd rs1) s (ResultXFlags rd (BitVec.ofInt 64 v) f)) ∧
    (∃ (v : Int) (f : Flags), ConvertsToInt binary64 mode (readF s rs1) 0 (2 ^ 64 - 1) v f ∧
      Answers (.fcvtLuD rm rd rs1) s (ResultXFlags rd (BitVec.ofInt 64 v) f)))

/-- Under a legal effective mode each completes with the integer, the low 32 or all 64 bits of x[rs1] as signed or
unsigned, rounded once to the format: NX exactly when rounding changed it and no other flag; 0 gives +0. The L and
LU forms where XLEN is 64. (R307.) -/
def Obligations.IntegerToFloat : Prop :=
  ∀ (s : State) (rm : BitVec 3) (mode : RoundingMode) (rd : FReg) (rs1 : XReg), EffectiveMode rm s.frm mode →
    (∃ r, FromInt binary32 mode (readX 32 s rs1).toInt r ∧
      Answers (.fcvtSW rm rd rs1) s (ResultFFlags rd (BitVec.allOnes 32 ++ r.1) r.2)) ∧
    (∃ r, FromInt binary32 mode ((readX 32 s rs1).toNat : Int) r ∧
      Answers (.fcvtSWu rm rd rs1) s (ResultFFlags rd (BitVec.allOnes 32 ++ r.1) r.2)) ∧
    (∃ r, FromInt binary64 mode (readX 32 s rs1).toInt r ∧
      Answers (.fcvtDW rm rd rs1) s (ResultFFlags rd (r.1) r.2)) ∧
    (∃ r, FromInt binary64 mode ((readX 32 s rs1).toNat : Int) r ∧
      Answers (.fcvtDWu rm rd rs1) s (ResultFFlags rd (r.1) r.2)) ∧
    (s.params.xlen = .rv64 →
    (∃ r, FromInt binary32 mode (readX 64 s rs1).toInt r ∧
      Answers (.fcvtSL rm rd rs1) s (ResultFFlags rd (BitVec.allOnes 32 ++ r.1) r.2)) ∧
    (∃ r, FromInt binary32 mode ((readX 64 s rs1).toNat : Int) r ∧
      Answers (.fcvtSLu rm rd rs1) s (ResultFFlags rd (BitVec.allOnes 32 ++ r.1) r.2)) ∧
    (∃ r, FromInt binary64 mode (readX 64 s rs1).toInt r ∧
      Answers (.fcvtDL rm rd rs1) s (ResultFFlags rd (r.1) r.2)) ∧
    (∃ r, FromInt binary64 mode ((readX 64 s rs1).toNat : Int) r ∧
      Answers (.fcvtDLu rm rd rs1) s (ResultFFlags rd (r.1) r.2)))

/-- FMV.X.S answers f[rs1][31:0], sign-extended, whatever the upper half holds; FMV.S.X the low 32 bits of x[rs1],
boxed; FMV.X.D and FMV.D.X, where XLEN is 64, all 64 bits; no flag and no rounding mode. (R333, R335, R400, R401,
R302, R303.) -/
def Obligations.FloatMoves : Prop :=
  ∀ (s : State) (r : XReg) (f : FReg),
    Answers (.fmvXS r f) s (ResultX r (BitVec.ofInt s.bits (BitVec.ofNat 32 (readF s f).toNat).toInt)) ∧
    Answers (.fmvSX f r) s (ResultF f (BitVec.allOnes 32 ++ readX 32 s r)) ∧
    (s.params.xlen = .rv64 → Answers (.fmvXD r f) s (ResultX r (readF s f)) ∧
      Answers (.fmvDX f r) s (ResultF f (readX 64 s r)))

/-- In every state: FRCSR, FRRM, FRFLAGS answer fcsr, frm, fflags, zero-extended, and change nothing; FSCSR, FSRM,
FSFLAGS write the low 8, 3, 5 bits of x[rs1], FSRMI and FSFLAGSI the low 3 or all 5 bits of uimm, to the field, keep
the other field, and answer the old value; reserved values of frm are written like any other. Nothing raises. (R336,
R337, R338, R339, R340, R341, R342, R343, R30, R33.) -/
def Obligations.FcsrAccess : Prop :=
  ∀ (s : State) (rd rs1 : XReg) (uimm : BitVec 5),
    let c := s.fcsr.toNat
    let x := (readX s.bits s rs1).toNat
    let swaps (i : Instr) (old new : Nat) := Answers i s (SwapsFcsr rd (BitVec.ofNat s.bits old) (BitVec.ofNat 8 new))
    swaps (.frcsr rd) c c ∧ swaps (.frrm rd) (c / 32) c ∧ swaps (.frflags rd) (c % 32) c ∧
      swaps (.fscsr rd rs1) c (x % 256) ∧
      swaps (.fsrm rd rs1) (c / 32) (x % 8 * 32 + c % 32) ∧
      swaps (.fsflags rd rs1) (c % 32) (c / 32 * 32 + x % 32) ∧
      swaps (.fsrmi rd uimm) (c / 32) (uimm.toNat % 8 * 32 + c % 32) ∧
      swaps (.fsflagsi rd uimm) (c % 32) (c / 32 * 32 + uimm.toNat)

/-- In both formats and all five modes, for finite operands whose exact sum, difference, product or ±(a*b) ± c is not 0,
the result is the one R304 gives for that exact value: the datum the mode picks among all finite data, or the
overflow result; with OF, UF (tiny after rounding, and inexact) and NX exactly where R304 sets them and no other
flag. The fused forms round once only. (R304, R31, R300, R370, R312, R316, R317, R318.) -/
def Obligations.SumsProductsRoundedOnce : Prop :=
  ∀ (F : FloatFormat) (mode : RoundingMode) (a b c : BitVec F.width), IsFormat F →
    isFinite F a = true → isFinite F b = true →
    (valueOf F a + valueOf F b ≠ 0 →
      Rounded F mode ((valueOf F a + valueOf F b : ℚ) : ℝ) (fAdd F mode a b)) ∧
    (valueOf F a - valueOf F b ≠ 0 →
      Rounded F mode ((valueOf F a - valueOf F b : ℚ) : ℝ) (fSub F mode a b)) ∧
    (valueOf F a * valueOf F b ≠ 0 →
      Rounded F mode ((valueOf F a * valueOf F b : ℚ) : ℝ) (fMul F mode a b)) ∧
    (isFinite F c = true → ∀ negProduct negAddend : Bool,
      signOf negProduct * (valueOf F a * valueOf F b) + signOf negAddend * valueOf F c ≠ 0 →
      Rounded F mode
        ((signOf negProduct * (valueOf F a * valueOf F b) + signOf negAddend * valueOf F c : ℚ) : ℝ)
        (fMulAdd F mode negProduct negAddend a b c))

/-- In both formats and all five modes: for finite operands that are not 0 the quotient, and for a finite positive
operand the square root, irrational or not, is the result R304 gives for the exact real value, with OF, UF and NX
exactly where R304 sets them and no other flag. (R304, R31, R300, R370, R319, R325.) -/
def Obligations.QuotientsRootsRoundedOnce : Prop :=
  ∀ (F : FloatFormat) (mode : RoundingMode) (a b : BitVec F.width), IsFormat F → isFinite F a = true →
    (isFinite F b = true → valueOf F a ≠ 0 → valueOf F b ≠ 0 →
      Rounded F mode ((valueOf F a / valueOf F b : ℚ) : ℝ) (fDiv F mode a b)) ∧
    (0 < valueOf F a → Rounded F mode (Real.sqrt (valueOf F a : ℝ)) (fSqrt F mode a))

/-- In both formats and all modes: with a NaN operand, sum, difference, product, quotient, root and fused multiply-add
deliver the canonical NaN, with NV alone if an operand is signaling and no flag otherwise (for the fused form NV
also for 0 * inf with a quiet NaN addend). inf - inf, 0 * inf, 0 / 0, inf / inf, the root of a negative nonzero
number, and the fused forms with 0 * inf or opposite infinities deliver it with NV alone. (R305, R370.) -/
def Obligations.NaNRules : Prop :=
  ∀ (F : FloatFormat) (mode : RoundingMode) (a b c : BitVec F.width) (p q : Bool), IsFormat F →
    let nanWith (nv : Bool) : FpResult F := (canonicalNaN F, { nv := nv })
    let signaling := isSignaling F a || isSignaling F b
    let isZero (v : BitVec F.width) := isFinite F v = true ∧ valueOf F v = 0
    let zeroTimesInf := (isZero a ∧ isInfinite F b = true) ∨ (isInfinite F a = true ∧ isZero b)
    (isNaN F a = true ∨ isNaN F b = true →
      fAdd F mode a b = nanWith signaling ∧ fSub F mode a b = nanWith signaling ∧
        fMul F mode a b = nanWith signaling ∧ fDiv F mode a b = nanWith signaling) ∧
    (isNaN F a = true → fSqrt F mode a = nanWith (isSignaling F a)) ∧
    (isNaN F a = true ∨ isNaN F b = true ∨ isNaN F c = true → ¬ zeroTimesInf →
      fMulAdd F mode p q a b c = nanWith (signaling || isSignaling F c)) ∧
    (isInfinite F a = true → isInfinite F b = true →
      (signBit F a ≠ signBit F b → fAdd F mode a b = nanWith true) ∧
      (signBit F a = signBit F b → fSub F mode a b = nanWith true) ∧ fDiv F mode a b = nanWith true) ∧
    (zeroTimesInf → fMul F mode a b = nanWith true ∧ fMulAdd F mode p q a b c = nanWith true) ∧
    (isZero a → isZero b → fDiv F mode a b = nanWith true) ∧
    (signBit F a = true → isInfinite F a = true ∨ (isFinite F a = true ∧ valueOf F a ≠ 0) →
      fSqrt F mode a = nanWith true) ∧
    (isInfinite F c = true → isNaN F a = false → isNaN F b = false → isInfinite F a = true ∨ isInfinite F b = true →
      ¬ zeroTimesInf → ((signBit F a ^^ signBit F b) ^^ p) ≠ (signBit F c ^^ q) →
      fMulAdd F mode p q a b c = nanWith true)

/-- In both formats and all modes: infinite operands give the infinity or zero IEEE 754 gives, with no flag; a finite
nonzero number over zero gives the infinity with the signs' exclusive or and DZ alone; an exact zero sum has the
common sign of both operands, else + but - in RDN; a zero product or quotient has the exclusive or of the signs; the
root of a zero is that zero; none of these sets a flag. (R304, R305, R319, R325, R370.) -/
def Obligations.InfinitiesAndZeros : Prop :=
  ∀ (F : FloatFormat) (mode : RoundingMode) (a b c : BitVec F.width) (p q : Bool), IsFormat F →
    let sa := signBit F a
    let sb := signBit F b
    let product := (sa ^^ sb) ^^ p
    let addend := signBit F c ^^ q
    let exact (v : BitVec F.width) : FpResult F := (v, {})
    let zeroSign (n m : Bool) : Bool := if n = m then n else mode == .rdn
    (isFinite F a = true → isFinite F b = true →
      (valueOf F a + valueOf F b = 0 → fAdd F mode a b = exact (zero F (zeroSign sa sb))) ∧
      (valueOf F a - valueOf F b = 0 → fSub F mode a b = exact (zero F (zeroSign sa (!sb)))) ∧
      (valueOf F a * valueOf F b = 0 → fMul F mode a b = exact (zero F (sa ^^ sb))) ∧
      (valueOf F a = 0 → valueOf F b ≠ 0 → fDiv F mode a b = exact (zero F (sa ^^ sb))) ∧
      (valueOf F a ≠ 0 → valueOf F b = 0 → fDiv F mode a b = (infinity F (sa ^^ sb), { dz := true })) ∧
      (valueOf F a = 0 → fSqrt F mode a = exact (zero F sa)) ∧
      (isFinite F c = true → signOf p * (valueOf F a * valueOf F b) + signOf q * valueOf F c = 0 →
        fMulAdd F mode p q a b c = exact (zero F (zeroSign product addend))) ∧
      (isInfinite F c = true → fMulAdd F mode p q a b c = exact (infinity F addend))) ∧
    (isInfinite F a = true → isFinite F b = true →
      fAdd F mode a b = exact (infinity F sa) ∧ fSub F mode a b = exact (infinity F sa) ∧
        fAdd F mode b a = exact (infinity F sa) ∧ fSub F mode b a = exact (infinity F (!sa)) ∧
        fDiv F mode a b = exact (infinity F (sa ^^ sb)) ∧ fDiv F mode b a = exact (zero F (sb ^^ sa)) ∧
        (valueOf F b ≠ 0 →
          fMul F mode a b = exact (infinity F (sa ^^ sb)) ∧ fMul F mode b a = exact (infinity F (sb ^^ sa)) ∧
            (isFinite F c = true → fMulAdd F mode p q a b c = exact (infinity F product) ∧
              fMulAdd F mode p q b a c = exact (infinity F product)))) ∧
    (isInfinite F a = true → isInfinite F b = true →
      (sa = sb → fAdd F mode a b = exact (infinity F sa)) ∧ (sa ≠ sb → fSub F mode a b = exact (infinity F sa)) ∧
        fMul F mode a b = exact (infinity F (sa ^^ sb)) ∧
        (isFinite F c = true → fMulAdd F mode p q a b c = exact (infinity F product))) ∧
    (isInfinite F a = true → isInfinite F c = true → isNaN F b = false →
      ¬ (isFinite F b = true ∧ valueOf F b = 0) → product = addend →
      fMulAdd F mode p q a b c = exact (infinity F product) ∧ fMulAdd F mode p q b a c = exact (infinity F product)) ∧
    (isInfinite F a = true → sa = false → fSqrt F mode a = exact (infinity F false))
end

