-- ==== Sys2Proof/Laws/Decode.lean ====
section
/-! SUPPORT. Laws of decoding and encoding: fields of placed words, immediates, bytes of words, and what the decoder's
answer says. -/

namespace Sys2Proof

/-- Bit `i` of a placed field. -/
theorem getLsbD_place {k : Nat} (lo : Nat) (v : BitVec k) (i : Nat) :
    (place lo v).getLsbD i = (decide (i < 32) && decide (lo ≤ i) && v.getLsbD (i - lo)) := by
  unfold place
  rw [BitVec.getLsbD_shiftLeft, BitVec.getLsbD_setWidth]
  by_cases h1 : i < 32 <;> by_cases h2 : lo ≤ i <;> simp [h1, h2]
  · have h3 : ¬ i < lo := by omega
    have h4 : i - lo < 32 := by omega
    simp [h3, h4]

/-- Bit `i` of a field. -/
theorem getLsbD_field (w : InstWord) (lo k i : Nat) :
    (field w lo k).getLsbD i = (decide (i < k) && w.getLsbD (lo + i)) := by
  simp [field]

/-- A field of a union of words. -/
theorem field_or (a b : InstWord) (lo k : Nat) : field (a ||| b) lo k = field a lo k ||| field b lo k := by
  simp [field, BitVec.extractLsb'_or]

/-- The field where a value was placed reads it back. -/
theorem field_place_same {k : Nat} (lo : Nat) (v : BitVec k) (h : lo + k ≤ 32) : field (place lo v) lo k = v := by
  apply BitVec.eq_of_getLsbD_eq; intro i hi
  rw [getLsbD_field, getLsbD_place]
  have : lo + i < 32 := by omega
  simp [hi, this]

/-- A field apart from where a value was placed reads zero. -/
theorem field_place_disjoint {n : Nat} (lo lo' k : Nat) (v : BitVec n) (h : lo' + n ≤ lo ∨ lo + k ≤ lo') :
    field (place lo' v) lo k = 0 := by
  apply BitVec.eq_of_getLsbD_eq; intro i hi
  rw [getLsbD_field, getLsbD_place]
  rcases h with h | h
  · have : v.getLsbD (lo + i - lo') = false := BitVec.getLsbD_of_ge _ _ (by omega)
    simp [this]
  · have : ¬ lo' ≤ lo + i := by omega
    simp [this]

/-- A mask with no bit in a field drops it. -/
theorem place_and_mask {n : Nat} (lo : Nat) (v : BitVec n) (m : InstWord) (h : m &&& place lo (BitVec.allOnes n) = 0) :
    place lo v &&& m = 0 := by
  apply BitVec.eq_of_getLsbD_eq; intro i hi
  have := congrArg (fun b => BitVec.getLsbD b i) h
  simp only [BitVec.getLsbD_and, getLsbD_place] at this ⊢
  simp at this ⊢
  intro h1 h2 h3
  by_cases h4 : m.getLsbD i
  · have := this h4 h1 h2
    have h5 := BitVec.getLsbD_of_ge v (i-lo) this
    simp [h5] at h3
  · simpa using h4

/-- A mask over a union of words. -/
theorem or_and (a b m : InstWord) : (a ||| b) &&& m = (a &&& m) ||| (b &&& m) := by
  ext i; simp [Bool.and_or_distrib_right]

/-- A mask with no bit in a placed field drops it from a union. -/
theorem mask_drop {n : Nat} (lo : Nat) (v : BitVec n) (m a : InstWord) (h : m &&& place lo (BitVec.allOnes n) = 0) :
   (a ||| place lo v) &&& m = a &&& m := by
  rw [or_and, place_and_mask _ _ _ h]; simp

/-- The pieces of an even B-format offset make it up again (R118). -/
theorem immB_pieces (off : BitVec 13) (h : off.getLsbD 0 = false) :
    off.extractLsb' 12 1 ++ off.extractLsb' 11 1 ++ off.extractLsb' 5 6 ++ off.extractLsb' 1 4 ++ 0#1 = off := by
  apply BitVec.eq_of_getLsbD_eq; intro i hi
  have : i < 13 := hi
  have h0 : off[0] = false := by simpa using h
  interval_cases i <;> simp only [BitVec.getLsbD_append, BitVec.getLsbD_extractLsb'] <;> simp [h0]

/-- The pieces of an even J-format offset make it up again (R120). -/
theorem immJ_pieces (off : BitVec 21) (h : off.getLsbD 0 = false) :
    off.extractLsb' 20 1 ++ off.extractLsb' 12 8 ++ off.extractLsb' 11 1 ++ off.extractLsb' 1 10 ++ 0#1 = off := by
  apply BitVec.eq_of_getLsbD_eq; intro i hi
  have : i < 21 := hi
  have h0 : off[0] = false := by simpa using h
  interval_cases i <;> simp only [BitVec.getLsbD_append, BitVec.getLsbD_extractLsb'] <;> simp [h0]

/-- The pieces of an S-format immediate make it up again (R117). -/
theorem immS_pieces (imm : BitVec 12) : imm.extractLsb' 5 7 ++ imm.extractLsb' 0 5 = imm := by
  apply BitVec.eq_of_getLsbD_eq; intro i hi
  have : i < 12 := hi
  interval_cases i <;> simp only [BitVec.getLsbD_append, BitVec.getLsbD_extractLsb'] <;> simp

/-- The bit where another field was placed. -/
theorem getLsbD_place_disjoint {n : Nat} (lo i : Nat) (v : BitVec n) (h : i < lo ∨ lo + n ≤ i) :
    (place lo v).getLsbD i = false := by
  rw [getLsbD_place]
  rcases h with h | h
  · have : ¬ lo ≤ i := by omega
    simp [this]
  · have : v.getLsbD (i - lo) = false := BitVec.getLsbD_of_ge _ _ (by omega)
    simp [this]

/-- `aq` of a union of words. -/
theorem aqBit_or (a b : InstWord) : aqBit (a ||| b) = (aqBit a || aqBit b) := BitVec.getLsbD_or

/-- `aq` where it was placed. -/
theorem aqBit_place_same (b : Bool) : aqBit (place 26 (BitVec.ofBool b)) = b := by cases b <;> rfl

/-- `aq` where another field was placed. -/
theorem aqBit_place_disjoint {n : Nat} (lo : Nat) (v : BitVec n) (h : 26 < lo ∨ lo + n ≤ 26) :
    aqBit (place lo v) = false := getLsbD_place_disjoint lo 26 v h

/-- `rl` of a union of words. -/
theorem rlBit_or (a b : InstWord) : rlBit (a ||| b) = (rlBit a || rlBit b) := BitVec.getLsbD_or

/-- `rl` where it was placed. -/
theorem rlBit_place_same (b : Bool) : rlBit (place 25 (BitVec.ofBool b)) = b := by cases b <;> rfl

/-- `rl` where another field was placed. -/
theorem rlBit_place_disjoint {n : Nat} (lo : Nat) (v : BitVec n) (h : 25 < lo ∨ lo + n ≤ 25) :
    rlBit (place lo v) = false := getLsbD_place_disjoint lo 25 v h

/-- A word is the bytes it is stored as (`20_memory.md` R63). -/
theorem wordOfBytes_bytesOfWord (w : InstWord) :
    wordOfBytes (field w 0 8) (field w 8 8) (field w 16 8) (field w 24 8) = w := by
  apply BitVec.eq_of_getLsbD_eq; intro i hi
  have : i < 32 := hi
  unfold wordOfBytes
  interval_cases i <;> simp only [BitVec.getLsbD_append, getLsbD_field] <;> simp

/-- Decoding the stored bytes of a word decodes the word. -/
theorem decodeBytes_bytesOfWord (x : XLen) (w : InstWord) (rest : List Byte) :
    decodeBytes x (bytesOfWord w ++ rest) =
      match decodeWord x w with
      | .ok i => .ok (i, rest)
      | .error e => .error e := by
  have e := wordOfBytes_bytesOfWord w
  show (match decodeWord x (wordOfBytes (field w 0 8) (field w 8 8) (field w 16 8) (field w 24 8)) with
    | .ok i => Except.ok (i, rest)
    | .error e => Except.error e) = _
  rw [e]

/-- What the decoder answers comes from a row that accepts the word (`30_encoding.md` R126). -/
theorem decodeWord_ok {x : XLen} {w : InstWord} {i : Instr} (h : decodeWord x w = .ok i) :
    ∃ r ∈ opcodeRows, r.accepts x w = true ∧ r.build w = i := by
  unfold decodeWord at h
  split at h
  · next r hr => exact ⟨r, List.mem_of_find?_eq_some hr, by simpa using List.find?_some hr, by simpa using h⟩
  · cases h

/-- The decoder refuses a word exactly when no row accepts it (R131). -/
theorem decodeWord_error {x : XLen} {w : InstWord} {e : DecodeError} (h : decodeWord x w = .error e) :
    e = .reserved w ∧ ∀ r ∈ opcodeRows, r.accepts x w = false := by
  unfold decodeWord at h
  split at h
  · cases h
  · next hn => exact ⟨by simpa using h.symm, by simpa using hn⟩

/-- Table RV32I is part of the opcode table. -/
theorem mem_rowsRV32I {r : Row} (h : r ∈ rowsRV32I) : r ∈ opcodeRows := by
  simp only [opcodeRows, List.mem_append]; tauto

/-- Table RV64I is part of the opcode table. -/
theorem mem_rowsRV64I {r : Row} (h : r ∈ rowsRV64I) : r ∈ opcodeRows := by
  simp only [opcodeRows, List.mem_append]; tauto

/-- Table RV32M is part of the opcode table. -/
theorem mem_rowsRV32M {r : Row} (h : r ∈ rowsRV32M) : r ∈ opcodeRows := by
  simp only [opcodeRows, List.mem_append]; tauto

/-- Table RV64M is part of the opcode table. -/
theorem mem_rowsRV64M {r : Row} (h : r ∈ rowsRV64M) : r ∈ opcodeRows := by
  simp only [opcodeRows, List.mem_append]; tauto

/-- Table RV32A is part of the opcode table. -/
theorem mem_rowsRV32A {r : Row} (h : r ∈ rowsRV32A) : r ∈ opcodeRows := by
  simp only [opcodeRows, List.mem_append]; tauto

/-- Table RV64A is part of the opcode table. -/
theorem mem_rowsRV64A {r : Row} (h : r ∈ rowsRV64A) : r ∈ opcodeRows := by
  simp only [opcodeRows, List.mem_append]; tauto

/-- Table RV32F is part of the opcode table. -/
theorem mem_rowsRV32F {r : Row} (h : r ∈ rowsRV32F) : r ∈ opcodeRows := by
  simp only [opcodeRows, List.mem_append]; tauto

/-- Table RV64F is part of the opcode table. -/
theorem mem_rowsRV64F {r : Row} (h : r ∈ rowsRV64F) : r ∈ opcodeRows := by
  simp only [opcodeRows, List.mem_append]; tauto

/-- Table RV32D is part of the opcode table. -/
theorem mem_rowsRV32D {r : Row} (h : r ∈ rowsRV32D) : r ∈ opcodeRows := by
  simp only [opcodeRows, List.mem_append]; tauto

/-- Table RV64D is part of the opcode table. -/
theorem mem_rowsRV64D {r : Row} (h : r ∈ rowsRV64D) : r ∈ opcodeRows := by
  simp only [opcodeRows, List.mem_append]; tauto

end Sys2Proof
end

