-- ==== Sys2Proof/Laws/Ieee.lean ====
section
/-! SUPPORT. Lemmas about the floating-point operations of Sys2Proof/Machine/Ieee.lean: the integer square root, the
fields of packed data, and what `unpack` answers for each kind of datum. -/

namespace Sys2Proof.Machine

/-! ### The integer square root -/

/-- From a lower bound `acc` of the root that is less than `2^(k+1)` off, the search answers the root. -/
theorem isqrtFrom_spec (k : Nat) : ∀ (n acc : Nat), acc * acc ≤ n → n < (acc + 2 ^ (k + 1)) * (acc + 2 ^ (k + 1)) →
    isqrtFrom k n acc * isqrtFrom k n acc ≤ n ∧ n < (isqrtFrom k n acc + 1) * (isqrtFrom k n acc + 1) := by
  induction k with
  | zero =>
    intro n acc h1 h2
    unfold isqrtFrom
    split
    · next h => exact ⟨h, by simpa [add_assoc] using h2⟩
    · next h => exact ⟨h1, by omega⟩
  | succ k ih =>
    intro n acc h1 h2
    have e : acc + 2 ^ (k + 1 + 1) = acc + 2 ^ (k + 1) + 2 ^ (k + 1) := by ring
    unfold isqrtFrom
    simp only []
    split
    · next h => exact ih n _ h (by rw [e] at h2; exact h2)
    · next h => exact ih n acc h1 (by omega)

/-- `isqrt n` is the largest natural number whose square is at most `n`. -/
theorem isqrt_spec (n : Nat) : isqrt n * isqrt n ≤ n ∧ n < (isqrt n + 1) * (isqrt n + 1) := by
  refine isqrtFrom_spec (n.log2 / 2) n 0 (by omega) ?_
  have h := Nat.lt_log2_self (n := n)
  have e : (0 + 2 ^ (n.log2 / 2 + 1)) * (0 + 2 ^ (n.log2 / 2 + 1)) = 2 ^ (2 * (n.log2 / 2) + 2) := by
    rw [zero_add, ← pow_add]; congr 1; omega
  rw [e]
  exact lt_of_lt_of_le h (Nat.pow_le_pow_right (by omega) (by omega))

/-! ### Packed data -/

/-- The number of a packed datum whose magnitude fits. -/
theorem toNat_pack {F : FloatFormat} {neg : Bool} {mag : Nat} (h : mag < 2 ^ (F.expBits + F.fracBits)) :
    (pack F neg mag).toNat = (if neg then 2 ^ (F.expBits + F.fracBits) else 0) + mag := by
  have e : 2 ^ F.width = 2 ^ (F.expBits + F.fracBits) + 2 ^ (F.expBits + F.fracBits) := by
    unfold FloatFormat.width; rw [add_assoc, pow_add]; ring
  unfold pack
  rw [BitVec.toNat_ofNat, Nat.mod_eq_of_lt]
  rw [e]; split <;> omega

/-- The sign of a packed datum. -/
theorem signBit_pack {F : FloatFormat} {neg : Bool} {mag : Nat} (h : mag < 2 ^ (F.expBits + F.fracBits)) :
    signBit F (pack F neg mag) = neg := by
  unfold signBit
  rw [BitVec.getLsbD, toNat_pack h]
  cases neg
  · simpa using Nat.testBit_lt_two_pow h
  · simp only [if_true]
    rw [Nat.testBit_two_pow_add_eq, Nat.testBit_lt_two_pow h]; rfl

/-- The exponent field of a packed datum. -/
theorem expField_pack {F : FloatFormat} {neg : Bool} {mag : Nat} (h : mag < 2 ^ (F.expBits + F.fracBits)) :
    expField F (pack F neg mag) = mag / 2 ^ F.fracBits := by
  have hp : 0 < 2 ^ F.fracBits := by positivity
  have hm : mag / 2 ^ F.fracBits < 2 ^ F.expBits := by
    rw [Nat.div_lt_iff_lt_mul hp, ← pow_add]; exact h
  unfold expField
  rw [toNat_pack h]
  split
  · rw [pow_add, mul_comm, add_comm, mul_comm, Nat.add_mul_div_right _ _ hp, Nat.add_mod_right, Nat.mod_eq_of_lt hm]
  · rw [zero_add, Nat.mod_eq_of_lt hm]

/-- The fraction of a packed datum. -/
theorem fracField_pack {F : FloatFormat} {neg : Bool} {mag : Nat} (h : mag < 2 ^ (F.expBits + F.fracBits)) :
    fracField F (pack F neg mag) = mag % 2 ^ F.fracBits := by
  unfold fracField
  rw [toNat_pack h]
  split
  · rw [pow_add, add_comm, Nat.add_mul_mod_self_right]
  · rw [zero_add]

/-! ### What `unpack` answers -/

/-- A NaN unpacks to a NaN, signaling as its top fraction bit says. -/
theorem unpack_of_isNaN {F : FloatFormat} {b : BitVec F.width} (h : isNaN F b = true) :
    unpack F b = .nan (isSignaling F b) := by
  have h' := h
  simp only [isNaN, isFinite, Bool.and_eq_true, Bool.not_eq_true', bne_eq_false_iff_eq, bne_iff_ne] at h'
  unfold unpack
  simp only [h'.1, h'.2, if_true, if_false]
  simp [isSignaling, h]

/-- An infinity unpacks to an infinity. -/
theorem unpack_of_isInfinite {F : FloatFormat} {b : BitVec F.width} (h : isInfinite F b = true) :
    unpack F b = .inf (signBit F b) := by
  simp only [isInfinite, isFinite, Bool.and_eq_true, Bool.not_eq_true', bne_eq_false_iff_eq, beq_iff_eq] at h
  unfold unpack
  simp only [h.1, h.2, if_true]

/-- A finite datum unpacks to its sign, a significand and an exponent, whose value is that of its bits (R300). -/
theorem unpack_of_isFinite {F : FloatFormat} {b : BitVec F.width} (h : isFinite F b = true) :
    ∃ (sig : Nat) (exp : Int), unpack F b = .fin (signBit F b) sig exp ∧
      valueOf F b = signOf (signBit F b) * (sig * (2 : ℚ) ^ exp) := by
  simp only [isFinite, bne_iff_ne, ne_eq] at h
  unfold unpack valueOf
  simp only [h, if_false]
  by_cases he : expField F b = 0
  · exact ⟨fracField F b, F.qmin, by simp only [he, if_true], by simp only [he, if_true]⟩
  · refine ⟨2 ^ F.fracBits + fracField F b, F.qmin + (expField F b - 1 : Nat), by simp only [he, if_false], ?_⟩
    simp only [he, if_false]
    congr 1
    have e : F.qmin + ((expField F b - 1 : Nat) : Int) = ((expField F b : Int) - F.bias) - F.fracBits := by
      unfold FloatFormat.qmin FloatFormat.emin
      have : 1 ≤ expField F b := by omega
      push_cast [Nat.cast_sub this]; ring
    rw [e, zpow_sub₀ (by norm_num : (2 : ℚ) ≠ 0) (_ - _) _, zpow_natCast]
    generalize (2 : ℚ) ^ ((expField F b : Int) - F.bias) = z
    push_cast
    field_simp

end Sys2Proof.Machine
end

