-- ==== Sys2Proof/Laws/Memory.lean ====
section
/-! SUPPORT. Laws of memory: reads after writes, the canonical form kept by every operation, little-endian accesses,
and the sets of addresses. -/

namespace Sys2Proof.Machine

/-! ### One byte -/

/-- An erased address reads as an unlisted one; every other as before. -/
theorem Memory.read_erase (m : Memory) (a b : Nat) :
    (m.erase a).read b = if b = a then Memory.unlisted else m.read b := by
  induction m with
  | nil => simp [Memory.erase, Memory.read]
  | cons c m ih =>
    obtain ⟨d, v⟩ := c
    simp only [Memory.erase]
    split
    · next h => subst h; rw [ih]; split <;> simp_all [Memory.read, eq_comm]
    · next h =>
      simp only [Memory.read, ih]
      split
      · next h2 => subst h2; simp [h]
      · rfl

/-- An erased address is listed no more. -/
theorem Memory.ne_of_mem_erase {m : Memory} {a : Nat} {c : Host.Cell} (h : c ∈ m.erase a) : c.1 ≠ a ∧ c ∈ m := by
  induction m with
  | nil => simp [Memory.erase] at h
  | cons d m ih =>
    obtain ⟨b, v⟩ := d
    simp only [Memory.erase] at h
    split at h
    · exact ⟨(ih h).1, List.mem_cons_of_mem _ (ih h).2⟩
    · next hb =>
      rcases List.mem_cons.mp h with h | h
      · subst h; exact ⟨hb, List.mem_cons_self⟩
      · exact ⟨(ih h).1, List.mem_cons_of_mem _ (ih h).2⟩

/-- A placed byte is read back; every other address is as before, if the address was not listed. -/
theorem Memory.read_place {m : Memory} {a : Nat} (v : Byte) (b : Nat) (hm : ∀ c ∈ m, c.1 ≠ a) :
    (m.place a v).read b = if b = a then v else m.read b := by
  induction m with
  | nil => simp [Memory.place, Memory.read, eq_comm]
  | cons c m ih =>
    obtain ⟨d, u⟩ := c
    have hd : d ≠ a := hm (d, u) List.mem_cons_self
    have ih := ih fun c hc => hm c (List.mem_cons_of_mem _ hc)
    simp only [Memory.place]
    split
    · simp only [Memory.read, eq_comm]
    · simp only [Memory.read, ih]
      by_cases h1 : d = b <;> by_cases h2 : b = a <;> simp_all

/-- READ AFTER WRITE: the written address reads the byte, every other address reads as before. -/
theorem Memory.read_write (m : Memory) (a : Nat) (v : Byte) (b : Nat) :
    (m.write a v).read b = if b = a then v else m.read b := by
  unfold Memory.write
  split
  · next h => rw [Memory.read_erase, h]
  · rw [Memory.read_place v b fun c hc => (Memory.ne_of_mem_erase hc).1, Memory.read_erase]
    split <;> rfl

/-! ### The canonical form -/

/-- What the canonical form says of its first cell and of the rest. -/
theorem Memory.wf_cons {a : Nat} {v : Byte} {m : Memory} :
    Memory.wf ((a, v) :: m) = true ↔ v ≠ Memory.unlisted ∧ (∀ c ∈ m, a < c.1) ∧ m.wf = true := by
  simp [Memory.wf, and_assoc]

/-- Erasing keeps the canonical form. -/
theorem Memory.wf_erase {m : Memory} (h : m.wf = true) (a : Nat) : (m.erase a).wf = true := by
  induction m with
  | nil => rfl
  | cons c m ih =>
    obtain ⟨b, v⟩ := c
    obtain ⟨hv, hlt, hm⟩ := Memory.wf_cons.mp h
    simp only [Memory.erase]
    split
    · exact ih hm
    · exact Memory.wf_cons.mpr ⟨hv, fun c hc => hlt c (Memory.ne_of_mem_erase hc).2, ih hm⟩

/-- The cells of a memory with a byte placed. -/
theorem Memory.mem_place {m : Memory} {a : Nat} {v : Byte} {c : Host.Cell} (h : c ∈ m.place a v) :
    c = (a, v) ∨ c ∈ m := by
  induction m with
  | nil => simpa [Memory.place] using h
  | cons d m ih =>
    obtain ⟨b, u⟩ := d
    simp only [Memory.place] at h
    split at h
    · simpa using h
    · rcases List.mem_cons.mp h with h | h
      · right; simp [h]
      · rcases ih h with h | h
        · exact .inl h
        · right; simp [h]

/-- Placing a byte that is not the unlisted one at an address not listed keeps the canonical form. -/
theorem Memory.wf_place {m : Memory} (h : m.wf = true) {a : Nat} {v : Byte} (hv : v ≠ Memory.unlisted)
    (ha : ∀ c ∈ m, c.1 ≠ a) : (m.place a v).wf = true := by
  induction m with
  | nil => simp [Memory.place, Memory.wf, hv]
  | cons c m ih =>
    obtain ⟨b, u⟩ := c
    obtain ⟨hu, hlt, hm⟩ := Memory.wf_cons.mp h
    have hb : b ≠ a := ha (b, u) List.mem_cons_self
    simp only [Memory.place]
    split
    · next hab =>
      refine Memory.wf_cons.mpr ⟨hv, fun c hc => ?_, h⟩
      rcases List.mem_cons.mp hc with rfl | hc
      · exact hab
      · exact hab.trans (hlt c hc)
    · refine Memory.wf_cons.mpr ⟨hu, fun c hc => ?_, ih hm fun c hc => ha c (List.mem_cons_of_mem _ hc)⟩
      rcases Memory.mem_place hc with rfl | hc
      · show b < a; omega
      · exact hlt c hc

/-- A write keeps the canonical form. -/
theorem Memory.wf_write {m : Memory} (h : m.wf = true) (a : Nat) (v : Byte) : (m.write a v).wf = true := by
  unfold Memory.write
  split
  · exact Memory.wf_erase h a
  · next hv => exact Memory.wf_place (Memory.wf_erase h a) hv fun c hc => (Memory.ne_of_mem_erase hc).1

/-- The cells of a written memory: the written one, or one of before. -/
theorem Memory.mem_write {m : Memory} {a : Nat} {v : Byte} {c : Host.Cell} (h : c ∈ m.write a v) :
    c = (a, v) ∨ c ∈ m := by
  unfold Memory.write at h
  split at h
  · exact .inr (Memory.ne_of_mem_erase h).2
  · rcases Memory.mem_place h with h | h
    · exact .inl h
    · exact .inr (Memory.ne_of_mem_erase h).2

/-- Two canonical memories that read the same everywhere are the same data. -/
theorem Memory.eq_of_read_eq {m m' : Memory} (h : m.wf = true) (h' : m'.wf = true)
    (hr : ∀ a, m.read a = m'.read a) : m = m' := by
  have low : ∀ {m : Memory} {a : Nat}, (∀ c ∈ m, a < c.1) → m.read a = Memory.unlisted := by
    intro m a hm
    induction m with
    | nil => rfl
    | cons c m ih =>
      obtain ⟨b, v⟩ := c
      have : a < b := hm (b, v) List.mem_cons_self
      simp only [Memory.read, if_neg (by omega : ¬ b = a)]
      exact ih fun c hc => hm c (List.mem_cons_of_mem _ hc)
  induction m generalizing m' with
  | nil =>
    cases m' with
    | nil => rfl
    | cons c m' =>
      obtain ⟨b, v⟩ := c
      have := hr b
      simp [Memory.read] at this
      exact absurd this.symm (Memory.wf_cons.mp h').1
  | cons c m ih =>
    obtain ⟨a, v⟩ := c
    obtain ⟨hv, hlt, hm⟩ := Memory.wf_cons.mp h
    cases m' with
    | nil =>
      have := hr a
      simp [Memory.read] at this
      exact absurd this hv
    | cons c' m' =>
      obtain ⟨b, u⟩ := c'
      obtain ⟨hu, hlt', hm'⟩ := Memory.wf_cons.mp h'
      have hab : a = b := by
        by_contra hne
        rcases Nat.lt_or_gt_of_ne hne with hl | hl
        · have h1 := hr a
          rw [low (m := (b, u) :: m') (a := a) (by
            intro c hc
            rcases List.mem_cons.mp hc with rfl | hc
            · exact hl
            · exact hl.trans (hlt' c hc))] at h1
          simp [Memory.read] at h1
          exact hv h1
        · have h1 := hr b
          rw [low (m := (a, v) :: m) (a := b) (by
            intro c hc
            rcases List.mem_cons.mp hc with rfl | hc
            · exact hl
            · exact hl.trans (hlt c hc))] at h1
          simp [Memory.read] at h1
          exact hu h1.symm
      subst hab
      have hvu : v = u := by simpa [Memory.read] using hr a
      subst hvu
      congr 1
      refine ih hm hm' fun d => ?_
      by_cases hd : a = d
      · subst hd; rw [low hlt, low hlt']
      · simpa [Memory.read, hd] using hr d

/-! ### Several bytes -/

/-- Writing bytes leaves every other address alone. -/
theorem Memory.read_writeBytes_of_not_mem (as : List Nat) (bs : List Byte) (m : Memory) (a : Nat) (h : a ∉ as) :
    (m.writeBytes as bs).read a = m.read a := by
  induction as generalizing m bs with
  | nil => cases bs <;> rfl
  | cons b as ih =>
    cases bs with
    | nil => rfl
    | cons v bs =>
      simp only [List.mem_cons, not_or] at h
      rw [Memory.writeBytes, ih bs _ h.2, Memory.read_write, if_neg h.1]

/-- Writing bytes to distinct addresses: each reads its own. -/
theorem Memory.read_writeBytes (as : List Nat) (bs : List Byte) (m : Memory) (hn : as.Nodup) (k : Nat)
    (hk : k < as.length) (hb : k < bs.length) : (m.writeBytes as bs).read as[k] = bs[k] := by
  induction as generalizing m bs k with
  | nil => simp at hk
  | cons b as ih =>
    cases bs with
    | nil => simp at hb
    | cons v bs =>
      rw [List.nodup_cons] at hn
      cases k with
      | zero =>
        show ((m.write b v).writeBytes as bs).read b = v
        rw [Memory.read_writeBytes_of_not_mem _ _ _ _ hn.1, Memory.read_write, if_pos rfl]
      | succ k =>
        exact ih bs (m.write b v) hn.2 k (by simpa using hk) (by simpa using hb)

/-- Writing bytes keeps the canonical form. -/
theorem Memory.wf_writeBytes (as : List Nat) (bs : List Byte) {m : Memory} (h : m.wf = true) :
    (m.writeBytes as bs).wf = true := by
  induction as generalizing m bs with
  | nil => cases bs <;> exact h
  | cons a as ih =>
    cases bs with
    | nil => exact h
    | cons v bs => exact ih bs (Memory.wf_write h a v)

/-- The cells of a memory with bytes written are at the written addresses or were there before. -/
theorem Memory.mem_writeBytes (as : List Nat) (bs : List Byte) {m : Memory} {c : Host.Cell}
    (h : c ∈ m.writeBytes as bs) : c.1 ∈ as ∨ c ∈ m := by
  induction as generalizing m bs with
  | nil => right; cases bs <;> exact h
  | cons a as ih =>
    cases bs with
    | nil => exact .inr h
    | cons v bs =>
      rcases ih bs h with h | h
      · exact .inl (List.mem_cons_of_mem _ h)
      · rcases Memory.mem_write h with rfl | h
        · exact .inl List.mem_cons_self
        · exact .inr h

/-! ### Accesses -/

/-- An access of `n` bytes has `n` addresses. -/
@[simp] theorem length_accessBytes {w : Nat} (addr : BitVec w) (n : Nat) : (accessBytes addr n).length = n := by
  simp [accessBytes]

/-- The address of byte `k`. -/
theorem getElem_accessBytes {w : Nat} (addr : BitVec w) (n k : Nat) (h : k < (accessBytes addr n).length) :
    (accessBytes addr n)[k] = (addr + BitVec.ofNat w k).toNat := by
  simp [accessBytes]

/-- The addresses of an access are inside the address space. -/
theorem lt_of_mem_accessBytes {w : Nat} {addr : BitVec w} {n a : Nat} (h : a ∈ accessBytes addr n) : a < 2 ^ w := by
  simp only [accessBytes, List.mem_map] at h
  obtain ⟨k, -, rfl⟩ := h
  exact BitVec.isLt _

/-- The addresses of an access no longer than the address space are distinct. -/
theorem nodup_accessBytes {w : Nat} (addr : BitVec w) (n : Nat) (h : n ≤ 2 ^ w) : (accessBytes addr n).Nodup := by
  unfold accessBytes
  refine List.Nodup.map_on ?_ List.nodup_range
  intro i hi j hj he
  rw [List.mem_range] at hi hj
  have he := BitVec.eq_of_toNat_eq he
  have he : BitVec.ofNat w i = BitVec.ofNat w j := by
    have := congrArg (fun v => v - addr) he
    simpa [BitVec.add_comm addr] using this
  have := congrArg BitVec.toNat he
  simpa [Nat.mod_eq_of_lt (hi.trans_le h), Nat.mod_eq_of_lt (hj.trans_le h)] using this

/-- The bytes of a value. -/
@[simp] theorem length_leBytes (n v : Nat) : (leBytes n v).length = n := by
  induction n generalizing v with
  | zero => rfl
  | succ n ih => simp [leBytes, ih]

/-- Byte `k` of a value is its bits `8k+7 : 8k` (R62). -/
theorem getElem_leBytes (n v k : Nat) (h : k < (leBytes n v).length) :
    (leBytes n v)[k] = BitVec.ofNat 8 (v / 256 ^ k) := by
  induction n generalizing v k with
  | zero => simp at h
  | succ n ih =>
    cases k with
    | zero => simp [leBytes]
    | succ k =>
      show (leBytes n (v / 256))[k]'(by simpa [leBytes] using h) = _
      rw [ih, Nat.div_div_eq_div_mul, pow_succ']

/-- Byte `k` of a vector, as a slice. -/
theorem ofNat_div_eq_extractLsb' {n : Nat} (v : BitVec n) (k : Nat) :
    BitVec.ofNat 8 (v.toNat / 256 ^ k) = v.extractLsb' (8 * k) 8 := by
  apply BitVec.eq_of_toNat_eq
  have : (256 : Nat) ^ k = 2 ^ (8 * k) := by rw [pow_mul]; norm_num
  simp [BitVec.extractLsb'_toNat, Nat.shiftRight_eq_div_pow, this]

/-- STORE, THEN LOOK AT ONE BYTE: byte `k` of a stored value lies at `addr + k` (R62). -/
theorem Memory.read_writeLE {w : Nat} (m : Memory) (addr : BitVec w) (n : Nat) (v : BitVec (8 * n)) (hn : n ≤ 2 ^ w)
    (k : Nat) (hk : k < n) :
    (m.writeLE addr n v).read (addr + BitVec.ofNat w k).toNat = v.extractLsb' (8 * k) 8 := by
  have h := Memory.read_writeBytes (accessBytes addr n) (leBytes n v.toNat) m (nodup_accessBytes addr n hn) k
    (by simpa using hk) (by simpa using hk)
  rw [getElem_accessBytes, getElem_leBytes, ofNat_div_eq_extractLsb'] at h
  exact h

/-- A store leaves every other address alone. -/
theorem Memory.read_writeLE_of_not_mem {w : Nat} (m : Memory) (addr : BitVec w) (n : Nat) (v : BitVec (8 * n))
    (a : Nat) (h : a ∉ accessBytes addr n) : (m.writeLE addr n v).read a = m.read a :=
  Memory.read_writeBytes_of_not_mem _ _ _ _ h

/-- A store keeps the canonical form. -/
theorem Memory.wf_writeLE {w : Nat} {m : Memory} (h : m.wf = true) (addr : BitVec w) (n : Nat) (v : BitVec (8 * n)) :
    (m.writeLE addr n v).wf = true :=
  Memory.wf_writeBytes _ _ h

/-- The little-endian value of bytes, bit by bit. -/
theorem testBit_leNat (bs : List Byte) (i : Nat) :
    (leNat bs).testBit i = (bs[i / 8]?.getD 0).getLsbD (i % 8) := by
  induction bs generalizing i with
  | nil => simp [leNat]
  | cons b bs ih =>
    have hb : b.toNat < 2 ^ 8 := b.isLt
    rw [leNat, show b.toNat + 256 * leNat bs = 2 ^ 8 * leNat bs + b.toNat by omega,
      Nat.testBit_two_pow_mul_add _ hb]
    split
    · next h =>
      rw [Nat.div_eq_of_lt h, Nat.mod_eq_of_lt h]
      simp [BitVec.getLsbD]
    · next h =>
      rw [ih]
      have h1 : i / 8 = (i - 8) / 8 + 1 := by omega
      have h2 : i % 8 = (i - 8) % 8 := by omega
      rw [h1, h2, List.getElem?_cons_succ]

/-- LOAD, BIT BY BIT: bit `i` of a loaded value is bit `i % 8` of the byte at `addr + i / 8` (R62). -/
theorem Memory.getLsbD_readLE {w : Nat} (m : Memory) (addr : BitVec w) (n i : Nat) (h : i < 8 * n) :
    (m.readLE addr n).getLsbD i = (m.read (addr + BitVec.ofNat w (i / 8)).toNat).getLsbD (i % 8) := by
  have hk : i / 8 < n := by omega
  rw [Memory.readLE, BitVec.getLsbD_ofNat, testBit_leNat]
  simp [Memory.readBytes, accessBytes, h, hk]

/-! ### Sets of addresses -/

/-- Membership after an insertion. -/
theorem mem_addrInsert {a b : Nat} {set : List Nat} : b ∈ addrInsert a set ↔ b = a ∨ b ∈ set := by
  induction set with
  | nil => simp [addrInsert]
  | cons c set ih =>
    simp only [addrInsert]
    split
    · simp
    · split
      · next h => subst h; simp
      · simp [ih]; tauto

/-- Insertion keeps the addresses strictly rising. -/
theorem addrSorted_addrInsert {a : Nat} {set : List Nat} (h : addrSorted set = true) :
    addrSorted (addrInsert a set) = true := by
  induction set with
  | nil => rfl
  | cons c set ih =>
    simp only [addrSorted, Bool.and_eq_true, List.all_eq_true, decide_eq_true_eq] at h
    simp only [addrInsert]
    split
    · next hc =>
      simp only [addrSorted, Bool.and_eq_true, List.all_eq_true, decide_eq_true_eq]
      refine ⟨fun x hx => ?_, h⟩
      rcases List.mem_cons.mp hx with rfl | hx
      · exact hc
      · exact hc.trans (h.1 x hx)
    · split
      · simpa [addrSorted] using h
      · next h1 h2 =>
        simp only [addrSorted, Bool.and_eq_true, List.all_eq_true, decide_eq_true_eq]
        refine ⟨fun x hx => ?_, ih h.2⟩
        rcases mem_addrInsert.mp hx with rfl | hx
        · omega
        · exact h.1 x hx

/-- Membership after several insertions. -/
theorem mem_addrInsertAll {as : List Nat} {b : Nat} {set : List Nat} :
    b ∈ addrInsertAll as set ↔ b ∈ set ∨ b ∈ as := by
  induction as generalizing set with
  | nil => simp [addrInsertAll]
  | cons a as ih =>
    have := ih (set := addrInsert a set)
    simp only [addrInsertAll, List.foldl_cons] at this ⊢
    rw [this, mem_addrInsert, List.mem_cons]; tauto

/-- Several insertions keep the addresses strictly rising. -/
theorem addrSorted_addrInsertAll {as set : List Nat} (h : addrSorted set = true) :
    addrSorted (addrInsertAll as set) = true := by
  induction as generalizing set with
  | nil => exact h
  | cons a as ih => exact ih (addrSorted_addrInsert h)

end Sys2Proof.Machine
end

