-- ==== Sys2Proof/Laws/State.lean ====
section
/-! SUPPORT. One lemma for each field of the state after each update, and the state after reset field by field. -/

namespace Sys2Proof.Machine

/-! ### `writeX` -/

@[simp] theorem writeX_params {w : Nat} (r : XReg) (v : BitVec w) (s : State) :
    (writeX r v s).params = s.params := rfl
@[simp] theorem writeX_pc {w : Nat} (r : XReg) (v : BitVec w) (s : State) : (writeX r v s).pc = s.pc := rfl
@[simp] theorem writeX_xs {w : Nat} (r : XReg) (v : BitVec w) (s : State) : (writeX r v s).xs = setX r v s.xs := rfl
@[simp] theorem writeX_fs {w : Nat} (r : XReg) (v : BitVec w) (s : State) : (writeX r v s).fs = s.fs := rfl
@[simp] theorem writeX_fcsr {w : Nat} (r : XReg) (v : BitVec w) (s : State) : (writeX r v s).fcsr = s.fcsr := rfl
@[simp] theorem writeX_reservation {w : Nat} (r : XReg) (v : BitVec w) (s : State) :
    (writeX r v s).reservation = s.reservation := rfl
@[simp] theorem writeX_mem {w : Nat} (r : XReg) (v : BitVec w) (s : State) : (writeX r v s).mem = s.mem := rfl
@[simp] theorem writeX_stale {w : Nat} (r : XReg) (v : BitVec w) (s : State) : (writeX r v s).stale = s.stale := rfl
@[simp] theorem writeX_run {w : Nat} (r : XReg) (v : BitVec w) (s : State) : (writeX r v s).run = s.run := rfl
@[simp] theorem writeX_scDraws {w : Nat} (r : XReg) (v : BitVec w) (s : State) :
    (writeX r v s).scDraws = s.scDraws := rfl
@[simp] theorem writeX_retryLoop {w : Nat} (r : XReg) (v : BitVec w) (s : State) :
    (writeX r v s).retryLoop = s.retryLoop := rfl

/-! ### `writeF` -/

@[simp] theorem writeF_params (r : FReg) (v : Word) (s : State) : (writeF r v s).params = s.params := rfl
@[simp] theorem writeF_pc (r : FReg) (v : Word) (s : State) : (writeF r v s).pc = s.pc := rfl
@[simp] theorem writeF_xs (r : FReg) (v : Word) (s : State) : (writeF r v s).xs = s.xs := rfl
@[simp] theorem writeF_fs (r : FReg) (v : Word) (s : State) :
    (writeF r v s).fs = s.fs.set r.num.toNat v r.num.isLt := rfl
@[simp] theorem writeF_fcsr (r : FReg) (v : Word) (s : State) : (writeF r v s).fcsr = s.fcsr := rfl
@[simp] theorem writeF_reservation (r : FReg) (v : Word) (s : State) :
    (writeF r v s).reservation = s.reservation := rfl
@[simp] theorem writeF_mem (r : FReg) (v : Word) (s : State) : (writeF r v s).mem = s.mem := rfl
@[simp] theorem writeF_stale (r : FReg) (v : Word) (s : State) : (writeF r v s).stale = s.stale := rfl
@[simp] theorem writeF_run (r : FReg) (v : Word) (s : State) : (writeF r v s).run = s.run := rfl
@[simp] theorem writeF_scDraws (r : FReg) (v : Word) (s : State) : (writeF r v s).scDraws = s.scDraws := rfl
@[simp] theorem writeF_retryLoop (r : FReg) (v : Word) (s : State) : (writeF r v s).retryLoop = s.retryLoop := rfl

/-! ### `setPc` -/

@[simp] theorem setPc_params {w : Nat} (target : BitVec w) (s : State) : (setPc target s).params = s.params := rfl
@[simp] theorem setPc_pc {w : Nat} (target : BitVec w) (s : State) : (setPc target s).pc = target.setWidth 64 := rfl
@[simp] theorem setPc_xs {w : Nat} (target : BitVec w) (s : State) : (setPc target s).xs = s.xs := rfl
@[simp] theorem setPc_fs {w : Nat} (target : BitVec w) (s : State) : (setPc target s).fs = s.fs := rfl
@[simp] theorem setPc_fcsr {w : Nat} (target : BitVec w) (s : State) : (setPc target s).fcsr = s.fcsr := rfl
@[simp] theorem setPc_reservation {w : Nat} (target : BitVec w) (s : State) :
    (setPc target s).reservation = s.reservation := rfl
@[simp] theorem setPc_mem {w : Nat} (target : BitVec w) (s : State) : (setPc target s).mem = s.mem := rfl
@[simp] theorem setPc_stale {w : Nat} (target : BitVec w) (s : State) : (setPc target s).stale = s.stale := rfl
@[simp] theorem setPc_run {w : Nat} (target : BitVec w) (s : State) : (setPc target s).run = s.run := rfl
@[simp] theorem setPc_scDraws {w : Nat} (target : BitVec w) (s : State) : (setPc target s).scDraws = s.scDraws := rfl
@[simp] theorem setPc_retryLoop {w : Nat} (target : BitVec w) (s : State) :
    (setPc target s).retryLoop = s.retryLoop := rfl

/-! ### `advance` -/

@[simp] theorem advance_params (s : State) : (advance s).params = s.params := rfl
@[simp] theorem advance_pc (s : State) : (advance s).pc = (nextPc s).setWidth 64 := rfl
@[simp] theorem advance_xs (s : State) : (advance s).xs = s.xs := rfl
@[simp] theorem advance_fs (s : State) : (advance s).fs = s.fs := rfl
@[simp] theorem advance_fcsr (s : State) : (advance s).fcsr = s.fcsr := rfl
@[simp] theorem advance_reservation (s : State) : (advance s).reservation = s.reservation := rfl
@[simp] theorem advance_mem (s : State) : (advance s).mem = s.mem := rfl
@[simp] theorem advance_stale (s : State) : (advance s).stale = s.stale := rfl
@[simp] theorem advance_run (s : State) : (advance s).run = s.run := rfl
@[simp] theorem advance_scDraws (s : State) : (advance s).scDraws = s.scDraws := rfl
@[simp] theorem advance_retryLoop (s : State) : (advance s).retryLoop = s.retryLoop := rfl

/-! ### `takeTrap` -/

@[simp] theorem takeTrap_params (tr : Trap) (s : State) : (takeTrap tr s).params = s.params := rfl
@[simp] theorem takeTrap_pc (tr : Trap) (s : State) : (takeTrap tr s).pc = s.pc := rfl
@[simp] theorem takeTrap_xs (tr : Trap) (s : State) : (takeTrap tr s).xs = s.xs := rfl
@[simp] theorem takeTrap_fs (tr : Trap) (s : State) : (takeTrap tr s).fs = s.fs := rfl
@[simp] theorem takeTrap_fcsr (tr : Trap) (s : State) : (takeTrap tr s).fcsr = s.fcsr := rfl
@[simp] theorem takeTrap_reservation (tr : Trap) (s : State) : (takeTrap tr s).reservation = s.reservation := rfl
@[simp] theorem takeTrap_mem (tr : Trap) (s : State) : (takeTrap tr s).mem = s.mem := rfl
@[simp] theorem takeTrap_stale (tr : Trap) (s : State) : (takeTrap tr s).stale = s.stale := rfl
@[simp] theorem takeTrap_run (tr : Trap) (s : State) : (takeTrap tr s).run = .stopped tr := rfl
@[simp] theorem takeTrap_scDraws (tr : Trap) (s : State) : (takeTrap tr s).scDraws = s.scDraws := rfl
@[simp] theorem takeTrap_retryLoop (tr : Trap) (s : State) : (takeTrap tr s).retryLoop = s.retryLoop := rfl

/-! ### `storeBytes` -/

@[simp] theorem storeBytes_params {w : Nat} (addr : BitVec w) (n : Nat) (v : BitVec (8 * n)) (s : State) :
    (storeBytes addr n v s).params = s.params := rfl
@[simp] theorem storeBytes_pc {w : Nat} (addr : BitVec w) (n : Nat) (v : BitVec (8 * n)) (s : State) :
    (storeBytes addr n v s).pc = s.pc := rfl
@[simp] theorem storeBytes_xs {w : Nat} (addr : BitVec w) (n : Nat) (v : BitVec (8 * n)) (s : State) :
    (storeBytes addr n v s).xs = s.xs := rfl
@[simp] theorem storeBytes_fs {w : Nat} (addr : BitVec w) (n : Nat) (v : BitVec (8 * n)) (s : State) :
    (storeBytes addr n v s).fs = s.fs := rfl
@[simp] theorem storeBytes_fcsr {w : Nat} (addr : BitVec w) (n : Nat) (v : BitVec (8 * n)) (s : State) :
    (storeBytes addr n v s).fcsr = s.fcsr := rfl
@[simp] theorem storeBytes_reservation {w : Nat} (addr : BitVec w) (n : Nat) (v : BitVec (8 * n)) (s : State) :
    (storeBytes addr n v s).reservation = s.reservation := rfl
@[simp] theorem storeBytes_mem {w : Nat} (addr : BitVec w) (n : Nat) (v : BitVec (8 * n)) (s : State) :
    (storeBytes addr n v s).mem = s.mem.writeLE addr n v := rfl
@[simp] theorem storeBytes_stale {w : Nat} (addr : BitVec w) (n : Nat) (v : BitVec (8 * n)) (s : State) :
    (storeBytes addr n v s).stale = addrInsertAll (accessBytes addr n) s.stale := rfl
@[simp] theorem storeBytes_run {w : Nat} (addr : BitVec w) (n : Nat) (v : BitVec (8 * n)) (s : State) :
    (storeBytes addr n v s).run = s.run := rfl
@[simp] theorem storeBytes_scDraws {w : Nat} (addr : BitVec w) (n : Nat) (v : BitVec (8 * n)) (s : State) :
    (storeBytes addr n v s).scDraws = s.scDraws := rfl
@[simp] theorem storeBytes_retryLoop {w : Nat} (addr : BitVec w) (n : Nat) (v : BitVec (8 * n)) (s : State) :
    (storeBytes addr n v s).retryLoop = s.retryLoop := rfl

/-! ### `syncFetch` -/

@[simp] theorem syncFetch_params (s : State) : (syncFetch s).params = s.params := rfl
@[simp] theorem syncFetch_pc (s : State) : (syncFetch s).pc = s.pc := rfl
@[simp] theorem syncFetch_xs (s : State) : (syncFetch s).xs = s.xs := rfl
@[simp] theorem syncFetch_fs (s : State) : (syncFetch s).fs = s.fs := rfl
@[simp] theorem syncFetch_fcsr (s : State) : (syncFetch s).fcsr = s.fcsr := rfl
@[simp] theorem syncFetch_reservation (s : State) : (syncFetch s).reservation = s.reservation := rfl
@[simp] theorem syncFetch_mem (s : State) : (syncFetch s).mem = s.mem := rfl
@[simp] theorem syncFetch_stale (s : State) : (syncFetch s).stale = [] := rfl
@[simp] theorem syncFetch_run (s : State) : (syncFetch s).run = s.run := rfl
@[simp] theorem syncFetch_scDraws (s : State) : (syncFetch s).scDraws = s.scDraws := rfl
@[simp] theorem syncFetch_retryLoop (s : State) : (syncFetch s).retryLoop = s.retryLoop := rfl

/-! ### `reserve` -/

@[simp] theorem reserve_params (r : Reservation) (s : State) : (reserve r s).params = s.params := rfl
@[simp] theorem reserve_pc (r : Reservation) (s : State) : (reserve r s).pc = s.pc := rfl
@[simp] theorem reserve_xs (r : Reservation) (s : State) : (reserve r s).xs = s.xs := rfl
@[simp] theorem reserve_fs (r : Reservation) (s : State) : (reserve r s).fs = s.fs := rfl
@[simp] theorem reserve_fcsr (r : Reservation) (s : State) : (reserve r s).fcsr = s.fcsr := rfl
@[simp] theorem reserve_reservation (r : Reservation) (s : State) : (reserve r s).reservation = some r := rfl
@[simp] theorem reserve_mem (r : Reservation) (s : State) : (reserve r s).mem = s.mem := rfl
@[simp] theorem reserve_stale (r : Reservation) (s : State) : (reserve r s).stale = s.stale := rfl
@[simp] theorem reserve_run (r : Reservation) (s : State) : (reserve r s).run = s.run := rfl
@[simp] theorem reserve_scDraws (r : Reservation) (s : State) : (reserve r s).scDraws = s.scDraws := rfl
@[simp] theorem reserve_retryLoop (r : Reservation) (s : State) : (reserve r s).retryLoop = s.retryLoop := rfl

/-! ### `endReservation` -/

@[simp] theorem endReservation_params (addr n : Nat) (s : State) : (endReservation addr n s).params = s.params := rfl
@[simp] theorem endReservation_pc (addr n : Nat) (s : State) : (endReservation addr n s).pc = s.pc := rfl
@[simp] theorem endReservation_xs (addr n : Nat) (s : State) : (endReservation addr n s).xs = s.xs := rfl
@[simp] theorem endReservation_fs (addr n : Nat) (s : State) : (endReservation addr n s).fs = s.fs := rfl
@[simp] theorem endReservation_fcsr (addr n : Nat) (s : State) : (endReservation addr n s).fcsr = s.fcsr := rfl
@[simp] theorem endReservation_reservation (addr n : Nat) (s : State) :
    (endReservation addr n s).reservation = none := rfl
@[simp] theorem endReservation_mem (addr n : Nat) (s : State) : (endReservation addr n s).mem = s.mem := rfl
@[simp] theorem endReservation_stale (addr n : Nat) (s : State) : (endReservation addr n s).stale = s.stale := rfl
@[simp] theorem endReservation_run (addr n : Nat) (s : State) : (endReservation addr n s).run = s.run := rfl
@[simp] theorem endReservation_scDraws (addr n : Nat) (s : State) :
    (endReservation addr n s).scDraws =
      if reserved s addr n && s.params.scMayFailSpuriously then s.scDraws + 1 else s.scDraws := rfl
@[simp] theorem endReservation_retryLoop (addr n : Nat) (s : State) :
    (endReservation addr n s).retryLoop = s.retryLoop := rfl

/-! ### `setFcsr` -/

@[simp] theorem setFcsr_params (v : BitVec 8) (s : State) : (setFcsr v s).params = s.params := rfl
@[simp] theorem setFcsr_pc (v : BitVec 8) (s : State) : (setFcsr v s).pc = s.pc := rfl
@[simp] theorem setFcsr_xs (v : BitVec 8) (s : State) : (setFcsr v s).xs = s.xs := rfl
@[simp] theorem setFcsr_fs (v : BitVec 8) (s : State) : (setFcsr v s).fs = s.fs := rfl
@[simp] theorem setFcsr_fcsr (v : BitVec 8) (s : State) : (setFcsr v s).fcsr = v := rfl
@[simp] theorem setFcsr_reservation (v : BitVec 8) (s : State) : (setFcsr v s).reservation = s.reservation := rfl
@[simp] theorem setFcsr_mem (v : BitVec 8) (s : State) : (setFcsr v s).mem = s.mem := rfl
@[simp] theorem setFcsr_stale (v : BitVec 8) (s : State) : (setFcsr v s).stale = s.stale := rfl
@[simp] theorem setFcsr_run (v : BitVec 8) (s : State) : (setFcsr v s).run = s.run := rfl
@[simp] theorem setFcsr_scDraws (v : BitVec 8) (s : State) : (setFcsr v s).scDraws = s.scDraws := rfl
@[simp] theorem setFcsr_retryLoop (v : BitVec 8) (s : State) : (setFcsr v s).retryLoop = s.retryLoop := rfl

/-! ### `setFrm` -/

@[simp] theorem setFrm_params (v : BitVec 3) (s : State) : (setFrm v s).params = s.params := rfl
@[simp] theorem setFrm_pc (v : BitVec 3) (s : State) : (setFrm v s).pc = s.pc := rfl
@[simp] theorem setFrm_xs (v : BitVec 3) (s : State) : (setFrm v s).xs = s.xs := rfl
@[simp] theorem setFrm_fs (v : BitVec 3) (s : State) : (setFrm v s).fs = s.fs := rfl
@[simp] theorem setFrm_fcsr (v : BitVec 3) (s : State) : (setFrm v s).fcsr = fcsrOf v s.fflags := rfl
@[simp] theorem setFrm_reservation (v : BitVec 3) (s : State) : (setFrm v s).reservation = s.reservation := rfl
@[simp] theorem setFrm_mem (v : BitVec 3) (s : State) : (setFrm v s).mem = s.mem := rfl
@[simp] theorem setFrm_stale (v : BitVec 3) (s : State) : (setFrm v s).stale = s.stale := rfl
@[simp] theorem setFrm_run (v : BitVec 3) (s : State) : (setFrm v s).run = s.run := rfl
@[simp] theorem setFrm_scDraws (v : BitVec 3) (s : State) : (setFrm v s).scDraws = s.scDraws := rfl
@[simp] theorem setFrm_retryLoop (v : BitVec 3) (s : State) : (setFrm v s).retryLoop = s.retryLoop := rfl

/-! ### `setFflags` -/

@[simp] theorem setFflags_params (v : BitVec 5) (s : State) : (setFflags v s).params = s.params := rfl
@[simp] theorem setFflags_pc (v : BitVec 5) (s : State) : (setFflags v s).pc = s.pc := rfl
@[simp] theorem setFflags_xs (v : BitVec 5) (s : State) : (setFflags v s).xs = s.xs := rfl
@[simp] theorem setFflags_fs (v : BitVec 5) (s : State) : (setFflags v s).fs = s.fs := rfl
@[simp] theorem setFflags_fcsr (v : BitVec 5) (s : State) : (setFflags v s).fcsr = fcsrOf s.frm v := rfl
@[simp] theorem setFflags_reservation (v : BitVec 5) (s : State) : (setFflags v s).reservation = s.reservation := rfl
@[simp] theorem setFflags_mem (v : BitVec 5) (s : State) : (setFflags v s).mem = s.mem := rfl
@[simp] theorem setFflags_stale (v : BitVec 5) (s : State) : (setFflags v s).stale = s.stale := rfl
@[simp] theorem setFflags_run (v : BitVec 5) (s : State) : (setFflags v s).run = s.run := rfl
@[simp] theorem setFflags_scDraws (v : BitVec 5) (s : State) : (setFflags v s).scDraws = s.scDraws := rfl
@[simp] theorem setFflags_retryLoop (v : BitVec 5) (s : State) : (setFflags v s).retryLoop = s.retryLoop := rfl

/-! ### `accrue` -/

@[simp] theorem accrue_params (f : Flags) (s : State) : (accrue f s).params = s.params := rfl
@[simp] theorem accrue_pc (f : Flags) (s : State) : (accrue f s).pc = s.pc := rfl
@[simp] theorem accrue_xs (f : Flags) (s : State) : (accrue f s).xs = s.xs := rfl
@[simp] theorem accrue_fs (f : Flags) (s : State) : (accrue f s).fs = s.fs := rfl
@[simp] theorem accrue_fcsr (f : Flags) (s : State) : (accrue f s).fcsr = fcsrOf s.frm (s.fflags ||| f.bits) := rfl
@[simp] theorem accrue_reservation (f : Flags) (s : State) : (accrue f s).reservation = s.reservation := rfl
@[simp] theorem accrue_mem (f : Flags) (s : State) : (accrue f s).mem = s.mem := rfl
@[simp] theorem accrue_stale (f : Flags) (s : State) : (accrue f s).stale = s.stale := rfl
@[simp] theorem accrue_run (f : Flags) (s : State) : (accrue f s).run = s.run := rfl
@[simp] theorem accrue_scDraws (f : Flags) (s : State) : (accrue f s).scDraws = s.scDraws := rfl
@[simp] theorem accrue_retryLoop (f : Flags) (s : State) : (accrue f s).retryLoop = s.retryLoop := rfl

/-! ### `setLoop` -/

@[simp] theorem setLoop_params (l : Option RetryLoop) (s : State) : (setLoop l s).params = s.params := rfl
@[simp] theorem setLoop_pc (l : Option RetryLoop) (s : State) : (setLoop l s).pc = s.pc := rfl
@[simp] theorem setLoop_xs (l : Option RetryLoop) (s : State) : (setLoop l s).xs = s.xs := rfl
@[simp] theorem setLoop_fs (l : Option RetryLoop) (s : State) : (setLoop l s).fs = s.fs := rfl
@[simp] theorem setLoop_fcsr (l : Option RetryLoop) (s : State) : (setLoop l s).fcsr = s.fcsr := rfl
@[simp] theorem setLoop_reservation (l : Option RetryLoop) (s : State) :
    (setLoop l s).reservation = s.reservation := rfl
@[simp] theorem setLoop_mem (l : Option RetryLoop) (s : State) : (setLoop l s).mem = s.mem := rfl
@[simp] theorem setLoop_stale (l : Option RetryLoop) (s : State) : (setLoop l s).stale = s.stale := rfl
@[simp] theorem setLoop_run (l : Option RetryLoop) (s : State) : (setLoop l s).run = s.run := rfl
@[simp] theorem setLoop_scDraws (l : Option RetryLoop) (s : State) : (setLoop l s).scDraws = s.scDraws := rfl
@[simp] theorem setLoop_retryLoop (l : Option RetryLoop) (s : State) : (setLoop l s).retryLoop = l := rfl

/-! ### `placeAtPc` -/

@[simp] theorem placeAtPc_params (bytes : List Byte) (s : State) : (placeAtPc bytes s).params = s.params := rfl
@[simp] theorem placeAtPc_pc (bytes : List Byte) (s : State) : (placeAtPc bytes s).pc = s.pc := rfl
@[simp] theorem placeAtPc_xs (bytes : List Byte) (s : State) : (placeAtPc bytes s).xs = s.xs := rfl
@[simp] theorem placeAtPc_fs (bytes : List Byte) (s : State) : (placeAtPc bytes s).fs = s.fs := rfl
@[simp] theorem placeAtPc_fcsr (bytes : List Byte) (s : State) : (placeAtPc bytes s).fcsr = s.fcsr := rfl
@[simp] theorem placeAtPc_reservation (bytes : List Byte) (s : State) :
    (placeAtPc bytes s).reservation = s.reservation := rfl
@[simp] theorem placeAtPc_mem (bytes : List Byte) (s : State) :
    (placeAtPc bytes s).mem = s.mem.writeBytes (fetchAddrs s) bytes := rfl
@[simp] theorem placeAtPc_stale (bytes : List Byte) (s : State) :
    (placeAtPc bytes s).stale = s.stale.filter (!(fetchAddrs s).contains ·) := rfl
@[simp] theorem placeAtPc_run (bytes : List Byte) (s : State) : (placeAtPc bytes s).run = .running := rfl
@[simp] theorem placeAtPc_scDraws (bytes : List Byte) (s : State) : (placeAtPc bytes s).scDraws = s.scDraws := rfl
@[simp] theorem placeAtPc_retryLoop (bytes : List Byte) (s : State) :
    (placeAtPc bytes s).retryLoop = s.retryLoop := rfl

/-! ### `State.resetWith` -/

@[simp] theorem resetWith_params (p : Params) (xs fs : Vector Word 32) (fcsr : BitVec 8) (image : Memory) :
    (State.resetWith p xs fs fcsr image).params = p := rfl
@[simp] theorem resetWith_pc (p : Params) (xs fs : Vector Word 32) (fcsr : BitVec 8) (image : Memory) :
    (State.resetWith p xs fs fcsr image).pc = p.resetPc := rfl
@[simp] theorem resetWith_xs (p : Params) (xs fs : Vector Word 32) (fcsr : BitVec 8) (image : Memory) :
    (State.resetWith p xs fs fcsr image).xs = xs.set 0 0 := rfl
@[simp] theorem resetWith_fs (p : Params) (xs fs : Vector Word 32) (fcsr : BitVec 8) (image : Memory) :
    (State.resetWith p xs fs fcsr image).fs = fs := rfl
@[simp] theorem resetWith_fcsr (p : Params) (xs fs : Vector Word 32) (fcsr : BitVec 8) (image : Memory) :
    (State.resetWith p xs fs fcsr image).fcsr = fcsr := rfl
@[simp] theorem resetWith_reservation (p : Params) (xs fs : Vector Word 32) (fcsr : BitVec 8) (image : Memory) :
    (State.resetWith p xs fs fcsr image).reservation = none := rfl
@[simp] theorem resetWith_mem (p : Params) (xs fs : Vector Word 32) (fcsr : BitVec 8) (image : Memory) :
    (State.resetWith p xs fs fcsr image).mem = image := rfl
@[simp] theorem resetWith_stale (p : Params) (xs fs : Vector Word 32) (fcsr : BitVec 8) (image : Memory) :
    (State.resetWith p xs fs fcsr image).stale = [] := rfl
@[simp] theorem resetWith_run (p : Params) (xs fs : Vector Word 32) (fcsr : BitVec 8) (image : Memory) :
    (State.resetWith p xs fs fcsr image).run = .running := rfl
@[simp] theorem resetWith_scDraws (p : Params) (xs fs : Vector Word 32) (fcsr : BitVec 8) (image : Memory) :
    (State.resetWith p xs fs fcsr image).scDraws = 0 := rfl
@[simp] theorem resetWith_retryLoop (p : Params) (xs fs : Vector Word 32) (fcsr : BitVec 8) (image : Memory) :
    (State.resetWith p xs fs fcsr image).retryLoop = none := rfl

end Sys2Proof.Machine
end

