-- ==== Sys2Proof/Laws/Ops.lean ====
section
/-! SUPPORT. For each shared operation one lemma that says all it can do, in the terms of Sys2Proof/Safety.lean; the
meanings are read through these. -/

namespace Sys2Proof.Machine

/-! ### Registers -/

/-- `x0` reads as zero at every width (`10_state.md` R21). -/
@[simp] theorem readX_x0 (w : Nat) (s : State) : readX w s x0 = 0 := rfl

/-- A register read after a register write: the written one unless it is `x0`, else as before (R21). -/
theorem readX_writeX {w : Nat} (w' : Nat) (rd r : XReg) (v : BitVec w) (s : State) :
    readX w' (writeX rd v s) r = if r = rd ∧ rd ≠ x0 then (v.setWidth 64).setWidth w' else readX w' s r := by
  obtain ⟨n⟩ := rd
  obtain ⟨k⟩ := r
  simp only [readX, writeX_xs, setX, x0, XReg.mk.injEq, ne_eq]
  by_cases hn : n = 0#5
  · simp [hn]
  · by_cases hk : k = 0#5
    · subst hk
      have : ¬ (0#5 = n) := fun h => hn h.symm
      simp [this]
    · by_cases hkn : k = n
      · subst hkn; simp [hk]
      · have : n.toNat ≠ k.toNat := fun h => hkn (BitVec.eq_of_toNat_eq h.symm)
        simp [hn, hk, hkn, Vector.getElem_set_ne, this]

/-- A floating-point register read after a write. -/
theorem readF_writeF (rd r : FReg) (v : Word) (s : State) : readF (writeF rd v s) r = if r = rd then v else readF s r := by
  obtain ⟨n⟩ := rd
  obtain ⟨k⟩ := r
  simp only [readF, writeF_fs, FReg.mk.injEq]
  by_cases hkn : k = n
  · subst hkn; simp
  · have : n.toNat ≠ k.toNat := fun h => hkn (BitVec.eq_of_toNat_eq h.symm)
    simp [hkn, Vector.getElem_set_ne, this]

/-- Integer registers depend on the integer registers of the state only. -/
theorem readX_congr {s t : State} (h : t.xs = s.xs) (w : Nat) (r : XReg) : readX w t r = readX w s r := by
  unfold readX; rw [h]

/-- Floating-point registers depend on the floating-point registers of the state only. -/
theorem readF_congr {s t : State} (h : t.fs = s.fs) (r : FReg) : readF t r = readF s r := by
  unfold readF; rw [h]

/-- `XLEN` depends on the parameters only. -/
theorem bits_congr {s t : State} (h : t.params = s.params) : t.bits = s.bits := by unfold State.bits; rw [h]

/-- `XLEN` is 32 or 64. -/
theorem bits_cases (s : State) : s.bits = 32 ∨ s.bits = 64 := by
  unfold State.bits; cases s.params.xlen <;> simp [XLen.bits]

/-! ### The fields of `fcsr` -/

/-- The flags of a register made of its fields. -/
@[simp] theorem extract_fflags_fcsrOf (frm : BitVec 3) (fl : BitVec 5) : (fcsrOf frm fl).extractLsb' 0 5 = fl := by
  apply BitVec.eq_of_getLsbD_eq; intro i hi
  simp only [fcsrOf, BitVec.getLsbD_extractLsb', BitVec.getLsbD_append]
  simp [hi]

/-- The rounding mode of a register made of its fields. -/
@[simp] theorem extract_frm_fcsrOf (frm : BitVec 3) (fl : BitVec 5) : (fcsrOf frm fl).extractLsb' 5 3 = frm := by
  apply BitVec.eq_of_getLsbD_eq; intro i hi
  simp only [fcsrOf, BitVec.getLsbD_extractLsb', BitVec.getLsbD_append]
  simp [hi]

/-- The register is made of its two fields (R30). -/
theorem fcsrOf_fields (v : BitVec 8) : fcsrOf (v.extractLsb' 5 3) (v.extractLsb' 0 5) = v := by
  apply BitVec.eq_of_getLsbD_eq; intro i hi
  simp only [fcsrOf, BitVec.getLsbD_extractLsb', BitVec.getLsbD_append]
  split
  · next h => simp [h]
  · next h =>
    have h1 : 5 + (i - 5) = i := by omega
    have h2 : i - 5 < 3 := by omega
    simp [h1, h2]

@[simp] theorem fflags_setFflags (v : BitVec 5) (s : State) : (setFflags v s).fflags = v := by
  simp [State.fflags]
@[simp] theorem frm_setFflags (v : BitVec 5) (s : State) : (setFflags v s).frm = s.frm := by
  simp [State.frm]
@[simp] theorem fflags_setFrm (v : BitVec 3) (s : State) : (setFrm v s).fflags = s.fflags := by
  simp [State.fflags]
@[simp] theorem frm_setFrm (v : BitVec 3) (s : State) : (setFrm v s).frm = v := by simp [State.frm]
@[simp] theorem fflags_accrue (f : Flags) (s : State) : (accrue f s).fflags = s.fflags ||| f.bits :=
  fflags_setFflags _ s
@[simp] theorem frm_accrue (f : Flags) (s : State) : (accrue f s).frm = s.frm := frm_setFflags _ s

/-! ### Completion -/

/-- `retire` moves `pc` and nothing else. -/
theorem retire_onlyAdvances (s : State) : ∃ t, retire s = .next t ∧ OnlyAdvances s t :=
  ⟨_, rfl, fun _ => rfl, fun _ => rfl, rfl, fun _ => rfl, ⟨rfl, rfl, rfl, rfl⟩, ⟨rfl, rfl⟩, rfl⟩

/-- `retireX` writes one integer register and moves `pc`. -/
theorem retireX_resultX {w : Nat} (rd : XReg) (v : BitVec w) (s : State) :
    ∃ t, retireX rd v s = .next t ∧ ResultX rd v s t :=
  ⟨_, rfl, fun r => by
    show readX 64 (writeX rd v s) r = _; rw [readX_writeX]; simp,
    fun _ => rfl, rfl, fun _ => rfl, ⟨rfl, rfl, rfl, rfl⟩, ⟨rfl, rfl⟩, rfl⟩

/-- `retireF` writes one floating-point register and moves `pc`. -/
theorem retireF_resultF (rd : FReg) (v : Word) (s : State) : ∃ t, retireF rd v s = .next t ∧ ResultF rd v s t :=
  ⟨_, rfl, fun r => by show readF (writeF rd v s) r = _; rw [readF_writeF],
    fun _ => rfl, rfl, fun _ => rfl, ⟨rfl, rfl, rfl, rfl⟩, ⟨rfl, rfl⟩, rfl⟩

/-- A result for `x[rd]` with flags. -/
theorem retireX_accrue_resultXFlags {w : Nat} (rd : XReg) (v : BitVec w) (f : Flags) (s : State) :
    ∃ t, retireX rd v (accrue f s) = .next t ∧ ResultXFlags rd v f s t :=
  ⟨_, rfl, fun r => by
    show readX 64 (writeX rd v (accrue f s)) r = _; rw [readX_writeX, readX_congr (s := s) (t := accrue f s) rfl]; simp,
    ⟨fflags_accrue f s, frm_accrue f s⟩, fun _ => rfl, fun _ => rfl, ⟨rfl, rfl, rfl, rfl⟩, ⟨rfl, rfl⟩, rfl⟩

/-- A result for `f[rd]` with flags. -/
theorem retireF_accrue_resultFFlags (rd : FReg) (v : Word) (f : Flags) (s : State) :
    ∃ t, retireF rd v (accrue f s) = .next t ∧ ResultFFlags rd v f s t :=
  ⟨_, rfl, fun r => by
    show readF (writeF rd v (accrue f s)) r = _; rw [readF_writeF, readF_congr (s := s) (t := accrue f s) rfl],
    ⟨fflags_accrue f s, frm_accrue f s⟩, fun _ => rfl, fun _ => rfl, ⟨rfl, rfl, rfl, rfl⟩, ⟨rfl, rfl⟩, rfl⟩

/-- What `raise` answers: the trap, nothing written (`60_exceptions.md` R424). -/
theorem raise_traps (s : State) (c : Cause) (info : Word) : ∃ t, raise s c info = .next t ∧ TrapsWith c info s t :=
  ⟨_, rfl, rfl⟩

/-- With `XLEN = 64` a 64-bit row runs. -/
@[simp] theorem when64_of_rv64 {i : Instr} {s : State} (k : Result) (h : s.params.xlen = .rv64) : when64 i s k = k := by
  unfold when64; rw [h]

/-- With `XLEN = 32` the word of a 64-bit row is reserved (`41_rv64i.md` R220). -/
@[simp] theorem when64_of_rv32 {i : Instr} {s : State} (k : Result) (h : s.params.xlen = .rv32) :
    when64 i s k = illegal i s := by
  unfold when64; rw [h]

/-! ### Control transfer -/

/-- A transfer to an aligned target goes there. -/
theorem transfer_of_aligned {w : Nat} {target : BitVec w} (s s' : State) (h : target.extractLsb' 0 2 = 0) :
    transfer s s' target = .next (setPc target s') := by
  unfold transfer; rw [if_pos h]

/-- A transfer to a misaligned target raises and writes nothing (`40_rv32i.md` R161). -/
theorem transfer_of_misaligned {w : Nat} {target : BitVec w} (s s' : State) (h : target.extractLsb' 0 2 ≠ 0) :
    transfer s s' target = raise s .instructionAddressMisaligned (target.setWidth 64) := by
  unfold transfer; rw [if_neg h]

/-- A transfer that links: the link register and `pc`, nothing else. -/
theorem transfer_jumps {w : Nat} {target : BitVec w} (s : State) (rd : XReg) (v : BitVec w)
    (h : target.extractLsb' 0 2 = 0) :
    ∃ t, transfer s (writeX rd v s) target = .next t ∧ Jumps rd v target s t := by
  refine ⟨_, transfer_of_aligned s _ h, fun r => ?_, fun _ => rfl, rfl, fun _ => rfl, ⟨rfl, rfl, rfl, rfl⟩, ⟨rfl, rfl⟩, rfl⟩
  show readX 64 (writeX rd v s) r = _; rw [readX_writeX]; simp

/-! ### Memory accesses -/

/-- An access traps in exactly two ways, the alignment first (`20_memory.md` R66). -/
theorem accessTrap_cases {w : Nat} (s : State) (mis ref : Cause) (kinds : List AccessKind) (addr : BitVec w) (n : Nat) :
    (addr.toNat % n ≠ 0 ∧ accessTrap s mis ref kinds addr n = some ⟨mis, addr.setWidth 64⟩) ∨
    (addr.toNat % n = 0 ∧ (∃ k ∈ kinds, s.params.memValid k addr.toNat n = false) ∧
      accessTrap s mis ref kinds addr n = some ⟨ref, addr.setWidth 64⟩) ∨
    (addr.toNat % n = 0 ∧ (∀ k ∈ kinds, s.params.memValid k addr.toNat n = true) ∧
      accessTrap s mis ref kinds addr n = none) := by
  unfold accessTrap
  by_cases h : addr.toNat % n = 0
  · by_cases hv : kinds.all (fun kind => s.params.memValid kind addr.toNat n) = true
    · exact .inr (.inr ⟨h, by simpa using hv, by simp [h, hv]⟩)
    · refine .inr (.inl ⟨h, by simpa using hv, by simp [h, hv]⟩)
  · exact .inl ⟨h, by simp [h]⟩

/-- An aligned, valid access does not trap. -/
theorem accessTrap_none {w : Nat} {s : State} {mis ref : Cause} {kinds : List AccessKind} {addr : BitVec w} {n : Nat}
    (ha : addr.toNat % n = 0) (hv : ∀ k ∈ kinds, s.params.memValid k addr.toNat n = true) :
    accessTrap s mis ref kinds addr n = none := by
  rcases accessTrap_cases s mis ref kinds addr n with ⟨h, -⟩ | ⟨-, ⟨k, hk, h⟩, -⟩ | ⟨-, -, h⟩
  · exact absurd ha h
  · rw [hv k hk] at h; cases h
  · exact h

/-- A misaligned access traps, whatever `mem_valid` says. -/
theorem accessTrap_misaligned {w : Nat} {s : State} {mis ref : Cause} {kinds : List AccessKind} {addr : BitVec w}
    {n : Nat} (ha : addr.toNat % n ≠ 0) : accessTrap s mis ref kinds addr n = some ⟨mis, addr.setWidth 64⟩ := by
  unfold accessTrap; rw [if_pos ha]

/-- An aligned access that `mem_valid` refuses for a kind it needs traps. -/
theorem accessTrap_refused {w : Nat} {s : State} {mis ref : Cause} {kinds : List AccessKind} {addr : BitVec w}
    {n : Nat} (ha : addr.toNat % n = 0) (hv : ∃ k ∈ kinds, s.params.memValid k addr.toNat n = false) :
    accessTrap s mis ref kinds addr n = some ⟨ref, addr.setWidth 64⟩ := by
  rcases accessTrap_cases s mis ref kinds addr n with ⟨h, -⟩ | ⟨-, -, h⟩ | ⟨-, h, -⟩
  · exact absurd ha h
  · exact h
  · obtain ⟨k, hk, hf⟩ := hv
    rw [h k hk] at hf; cases hf

/-- A store that does not trap writes its bytes and moves `pc`; nothing else but the stale set changes. -/
theorem store_storesOnly {w : Nat} (s : State) (addr : BitVec w) (n : Nat) (v : BitVec (8 * n)) (hn : n ≤ 2 ^ w)
    (h : storeTrap s [.store] addr n = none) : ∃ t, store s addr n v = .next t ∧ StoresOnly addr n v s t := by
  refine ⟨advance (storeBytes addr n v s), by unfold store orElse; rw [h]; rfl, ⟨fun k hk => ?_, fun a ha => ?_⟩,
    fun a => ?_, fun _ => rfl, fun _ => rfl, rfl, rfl, ⟨rfl, rfl⟩, ⟨rfl, rfl⟩, rfl⟩
  · exact Memory.read_writeLE s.mem addr n v hn k hk
  · exact Memory.read_writeLE_of_not_mem s.mem addr n v a ha
  · exact mem_addrInsertAll

/-- Taking the trap if there is one. -/
@[simp] theorem orElse_some (t : Trap) (s : State) (k : Result) : orElse (some t) s k = .next (takeTrap t s) := rfl
@[simp] theorem orElse_none (s : State) (k : Result) : orElse none s k = k := rfl

/-! ### Values read from memory -/

/-- A loaded byte. -/
theorem readLE_one {w : Nat} (s : State) (addr : BitVec w) : s.mem.readLE addr 1 = byteAt s addr 0 := by
  apply BitVec.eq_of_getLsbD_eq; intro i hi
  rw [Memory.getLsbD_readLE _ _ _ _ hi]
  have : i < 8 := hi
  interval_cases i <;> simp [byteAt]

/-- A loaded halfword is made of its bytes, the higher address in the higher bits (R62). -/
theorem readLE_two {w : Nat} (s : State) (addr : BitVec w) : s.mem.readLE addr 2 = halfAt s addr := by
  apply BitVec.eq_of_getLsbD_eq; intro i hi
  rw [Memory.getLsbD_readLE _ _ _ _ hi]
  have : i < 16 := hi
  interval_cases i <;> simp only [halfAt, byteAt, BitVec.getLsbD_append] <;> simp

/-- A loaded word is made of its bytes. -/
theorem readLE_four {w : Nat} (s : State) (addr : BitVec w) : s.mem.readLE addr 4 = wordAt s addr := by
  apply BitVec.eq_of_getLsbD_eq; intro i hi
  rw [Memory.getLsbD_readLE _ _ _ _ hi]
  have : i < 32 := hi
  interval_cases i <;> simp only [wordAt, byteAt, BitVec.getLsbD_append] <;> simp

/-- A loaded doubleword is made of its bytes. -/
theorem readLE_eight {w : Nat} (s : State) (addr : BitVec w) : s.mem.readLE addr 8 = doubleAt s addr := by
  apply BitVec.eq_of_getLsbD_eq; intro i hi
  rw [Memory.getLsbD_readLE _ _ _ _ hi]
  have : i < 64 := hi
  interval_cases i <;> simp only [doubleAt, byteAt, BitVec.getLsbD_append] <;> simp

/-! ### Rounding mode -/

/-- Under a legal mode the instruction runs. -/
theorem withMode_of_some {i : Instr} {rm : BitVec 3} {s : State} {mode : RoundingMode} (k : RoundingMode → Result)
    (h : resolveRm rm s.frm = some mode) : withMode i rm s k = k mode := by
  unfold withMode; rw [h]

/-- Under a reserved mode it is illegal (`44_f_single.md` R301). -/
theorem withMode_of_none {i : Instr} {rm : BitVec 3} {s : State} (k : RoundingMode → Result)
    (h : resolveRm rm s.frm = none) : withMode i rm s k = illegal i s := by
  unfold withMode; rw [h]

/-! ### Completion with floating-point flags -/

/-- A single-precision result is boxed and its flags accrue. -/
theorem retireS_resultFFlags (rd : FReg) (r : BitVec 32 × Flags) (s : State) :
    ∃ t, retireS rd r s = .next t ∧ ResultFFlags rd (box r.1) r.2 s t := retireF_accrue_resultFFlags rd (box r.1) r.2 s

/-- A double-precision result is written as it is and its flags accrue. -/
theorem retireD_resultFFlags (rd : FReg) (r : BitVec 64 × Flags) (s : State) :
    ∃ t, retireD rd r s = .next t ∧ ResultFFlags rd r.1 r.2 s t := retireF_accrue_resultFFlags rd r.1 r.2 s

/-- An integer result of a floating-point instruction is sign-extended and its flags accrue. -/
theorem retireInt_resultXFlags {k : Nat} (rd : XReg) (r : BitVec k × Flags) (s : State) :
    ∃ t, retireInt rd r s = .next t ∧ ResultXFlags rd (r.1.signExtend s.bits) r.2 s t :=
  retireX_accrue_resultXFlags rd (r.1.signExtend s.bits) r.2 s

/-- A truth value of a floating-point instruction is written as 1 or 0 and its flags accrue. -/
theorem retireBool_resultXFlags (rd : XReg) (r : Bool × Flags) (s : State) :
    ∃ t, retireBool rd r s = .next t ∧ ResultXFlags rd (boolBits s.bits r.1) r.2 s t :=
  retireX_accrue_resultXFlags rd (boolBits s.bits r.1) r.2 s

/-! ### Branches -/

/-- A branch falls through, transfers, or raises (`40_rv32i.md` R161). -/
theorem branch_cases {n : Nat} (s : State) (taken : Bool) (off : BitVec n) :
    (taken = false ∧ branch s taken off = retire s) ∨
    (taken = true ∧ (pcPlus s off).extractLsb' 0 2 = 0 ∧ branch s taken off = .next (setPc (pcPlus s off) s)) ∨
    (taken = true ∧ (pcPlus s off).extractLsb' 0 2 ≠ 0 ∧
      branch s taken off = raise s .instructionAddressMisaligned ((pcPlus s off).setWidth 64)) := by
  cases taken
  · exact .inl ⟨rfl, rfl⟩
  · by_cases h : (pcPlus s off).extractLsb' 0 2 = 0
    · exact .inr (.inl ⟨rfl, h, transfer_of_aligned s s h⟩)
    · exact .inr (.inr ⟨rfl, h, transfer_of_misaligned s s h⟩)

/-! ### What accesses answer -/

/-- An access that is aligned and valid for every kind it needs does not trap. -/
theorem accessTrap_of_accessOk {w : Nat} {s : State} {mis ref : Cause} {kinds : List AccessKind} {addr : BitVec w}
    {n : Nat} (h : AccessOk s kinds addr n) : accessTrap s mis ref kinds addr n = none := accessTrap_none h.1 h.2

/-- An instruction that checks an access first raises as the access does. -/
theorem accessRaises_of_orElse {w : Nat} {i : Instr} {s : State} {mis ref : Cause} {kinds : List AccessKind}
    {addr : BitVec w} {n : Nat} {k : Result} (h : exec i s = orElse (accessTrap s mis ref kinds addr n) s k) :
    AccessRaises i s mis ref kinds addr n := by
  refine ⟨fun ha => ?_, fun ha hv => ?_⟩
  · rw [accessTrap_misaligned ha] at h; exact ⟨_, h, rfl⟩
  · rw [accessTrap_refused ha hv] at h; exact ⟨_, h, rfl⟩

/-- A load that does not trap goes on with the value. -/
theorem load_of_accessOk {w : Nat} {s : State} {addr : BitVec w} {n : Nat} (k : BitVec (8 * n) → Result)
    (h : AccessOk s [.load] addr n) : load s addr n k = k (s.mem.readLE addr n) := by
  unfold load loadTrap; rw [accessTrap_of_accessOk h]; rfl

/-- The bytes, and the stale addresses, after a write and an integer register write. -/
theorem writesMem_of_mem_eq {w : Nat} {addr : BitVec w} {n : Nat} {v : BitVec (8 * n)} {s t : State} (hn : n ≤ 2 ^ w)
    (h : t.mem = s.mem.writeLE addr n v) : WritesMem addr n v s t := by
  refine ⟨fun k hk => ?_, fun a ha => ?_⟩
  · rw [h]; exact Memory.read_writeLE s.mem addr n v hn k hk
  · rw [h]; exact Memory.read_writeLE_of_not_mem s.mem addr n v a ha

/-- An access of at most 8 bytes does not wrap onto itself. -/
theorem le_two_pow_bits (s : State) {n : Nat} (h : n ≤ 8) : n ≤ 2 ^ s.bits := by
  rcases bits_cases s with hb | hb <;> rw [hb] <;> omega

/-- An AMO that does not trap, as its register and memory writes. -/
theorem amo_of_accessOk (n : Nat) (op : BitVec (8 * n) → BitVec (8 * n) → BitVec (8 * n)) (rd rs1 rs2 : XReg)
    (s : State) (h : AccessOk s amoKinds (readX s.bits s rs1) n) :
    amo n op rd rs1 rs2 s = retireX rd ((s.mem.readLE (readX s.bits s rs1) n).signExtend s.bits)
      (storeBytes (readX s.bits s rs1) n (op (s.mem.readLE (readX s.bits s rs1) n) (readX (8 * n) s rs2)) s) := by
  show orElse (accessTrap s .storeAMOAddressMisaligned .storeAMOAccessFault amoKinds (readX s.bits s rs1) n) s _ = _
  rw [accessTrap_of_accessOk h]; rfl

/-- An AMO that does not trap: the old value in `x[rd]`, the new one in memory, nothing else. -/
theorem amo_updates (n : Nat) (op : BitVec (8 * n) → BitVec (8 * n) → BitVec (8 * n)) (rd rs1 rs2 : XReg) (s : State)
    (hn : n ≤ 8) (h : AccessOk s amoKinds (readX s.bits s rs1) n) :
    ∃ t, amo n op rd rs1 rs2 s = .next t ∧
      AmoUpdates rd (readX s.bits s rs1) n (s.mem.readLE (readX s.bits s rs1) n)
        (op (s.mem.readLE (readX s.bits s rs1) n) (readX (8 * n) s rs2)) s t := by
  rw [amo_of_accessOk n op rd rs1 rs2 s h]
  refine ⟨_, rfl, fun r => ?_, writesMem_of_mem_eq (le_two_pow_bits s hn) rfl, fun _ => mem_addrInsertAll,
    fun _ => rfl, rfl, rfl, ⟨rfl, rfl⟩, ⟨rfl, rfl⟩, rfl⟩
  show readX 64 (writeX rd _ (storeBytes _ _ _ s)) r = _
  rw [readX_writeX]; simp only [BitVec.setWidth_eq]; rfl

/-- `reserved` says that the reservation holds the bytes. -/
theorem reserved_iff {w : Nat} {s : State} {addr : BitVec w} {n : Nat} :
    reserved s addr.toNat n = true ↔ HoldsReservation s addr n := by
  unfold reserved HoldsReservation
  cases s.reservation with
  | none => simp
  | some r => simp [Reservation.covers]

/-- An SC that does not trap fails or succeeds, as `scSucceeds` has it. -/
theorem storeConditional_of_accessOk (n : Nat) (rd rs1 rs2 : XReg) (s : State) (hn : n ≤ 8)
    (h : AccessOk s scKinds (readX s.bits s rs1) n) :
    ∃ t, storeConditional n rd rs1 rs2 s = .next t ∧
      (if scSucceeds s (readX s.bits s rs1).toNat n then ScWrites rd (readX s.bits s rs1) n (readX (8 * n) s rs2) s t
        else ScFails rd s t) ∧
      t.scDraws = (endReservation (readX s.bits s rs1).toNat n s).scDraws := by
  have e : storeConditional n rd rs1 rs2 s =
      if scSucceeds s (readX s.bits s rs1).toNat n then
        retireX rd (0 : BitVec s.bits) (storeBytes (readX s.bits s rs1) n (readX (8 * n) s rs2)
          (endReservation (readX s.bits s rs1).toNat n s))
      else retireX rd (1 : BitVec s.bits) (endReservation (readX s.bits s rs1).toNat n s) := by
    show orElse (accessTrap s .storeAMOAddressMisaligned .storeAMOAccessFault scKinds (readX s.bits s rs1) n) s _ = _
    rw [accessTrap_of_accessOk h]; rfl
  rw [e]
  cases hs : scSucceeds s (readX s.bits s rs1).toNat n
  · refine ⟨_, rfl, ⟨fun r => ?_, fun _ => rfl, rfl, rfl, fun _ => rfl, rfl, rfl, ⟨rfl, rfl⟩, rfl⟩, rfl⟩
    show readX 64 (writeX rd _ (endReservation _ _ s)) r = _
    rw [readX_writeX]; simp only [BitVec.setWidth_eq]; rfl
  · refine ⟨_, rfl, ⟨fun r => ?_, writesMem_of_mem_eq (le_two_pow_bits s hn) rfl, fun _ => mem_addrInsertAll, rfl,
      fun _ => rfl, rfl, rfl, ⟨rfl, rfl⟩, rfl⟩, rfl⟩
    show readX 64 (writeX rd _ (storeBytes _ _ _ (endReservation _ _ s))) r = _
    rw [readX_writeX]; simp only [BitVec.setWidth_eq]; rfl

/-- An LR that does not trap: the value in `x[rd]` and the aligned reservation set. -/
theorem loadReserve_of_accessOk (n : Nat) (rd rs1 : XReg) (s : State)
    (h : AccessOk s lrKinds (readX s.bits s rs1) n) :
    loadReserve n rd rs1 s = retireX rd ((s.mem.readLE (readX s.bits s rs1) n).signExtend s.bits)
      (reserve (reservationSet s.params (readX s.bits s rs1).toNat) s) := by
  show orElse (accessTrap s .loadAddressMisaligned .loadAccessFault lrKinds (readX s.bits s rs1) n) s _ = _
  rw [accessTrap_of_accessOk h]; rfl

/-! ### Fetch and delivery -/

/-- A fetch raises, meets a stale byte, or answers the little-endian word (`20_memory.md` R68, R92). -/
theorem fetch_cases (s : State) :
    (s.params.memValid .fetch (readPc s.bits s).toNat 4 = false ∧ fetch s = .trap ⟨.instructionAccessFault, s.pc⟩) ∨
    (s.params.memValid .fetch (readPc s.bits s).toNat 4 = true ∧
      ∃ a ∈ fetchAddrs s, a ∈ s.stale ∧ fetch s = .stale a) ∨
    (s.params.memValid .fetch (readPc s.bits s).toNat 4 = true ∧ (∀ a ∈ fetchAddrs s, a ∉ s.stale) ∧
      fetch s = .word (wordAt s (readPc s.bits s))) := by
  unfold fetch
  cases hv : s.params.memValid .fetch (readPc s.bits s).toNat 4
  · exact .inl ⟨rfl, rfl⟩
  · cases hf : (fetchAddrs s).find? (s.stale.contains ·) with
    | some a =>
      refine .inr (.inl ⟨rfl, a, List.mem_of_find?_eq_some hf, ?_, rfl⟩)
      simpa using List.find?_some hf
    | none =>
      refine .inr (.inr ⟨rfl, fun a ha => ?_, ?_⟩)
      · simpa using List.find?_eq_none.1 hf a ha
      · show FetchResult.word (s.mem.readLE _ 4) = _
        rw [readLE_four]

/-- The default environment leaves a stopped hart stopped (`60_exceptions.md` R424). -/
theorem deliverTrap_eeiStops (s : State) : deliverTrap eeiStops s = s := by
  unfold deliverTrap eeiStops; cases s.run <;> rfl

end Sys2Proof.Machine
end

