-- ==== Sys2Proof/Laws/PerInstr.lean ====
section
/-! SUPPORT. The statement family made for each instruction: some row of the opcode table accepts the word of a
well-formed instruction and reads the instruction back from it. -/

namespace Sys2Proof.Laws

/-- A row of `opcode_table.json` that exists for the `XLEN` accepts the word of the instruction and reads from it the
instruction with every operand as it was (`30_encoding.md` R126). -/
def Encoding.Statement (i : Instr) : Prop :=
  ∀ x, i.wellFormed x = true → ∃ r ∈ opcodeRows, r.accepts x (encode i) = true ∧ r.build (encode i) = i
/-- A row found at its place in one of the tables, which accepts the instruction's word `w`, proves the statement. -/
theorem encoding_of_row {i : Instr} {x : XLen} {t : List Row} {r : Row} (k : Nat) (w : InstWord)
    (ht : ∀ {r}, r ∈ t → r ∈ opcodeRows) (hk : t[k]? = some r) (hw : encode i = w) (ha : r.accepts x w = true)
    (hb : r.build w = i) : ∃ r ∈ opcodeRows, r.accepts x (encode i) = true ∧ r.build (encode i) = i :=
  ⟨r, ht (List.mem_of_getElem? hk), hw ▸ ha, hw ▸ hb⟩

/-- The row exists when `XLEN = 64` only. -/
theorem eq_rv64_of_rowOf64 {x : XLen} (h : rowOf64 x = true) : x = .rv64 := by simpa [rowOf64] using h

/-- The row exists when `XLEN = 32` only. -/
theorem eq_rv32_of_rowOf32 {x : XLen} (h : rowOf32 x = true) : x = .rv32 := by simpa [rowOf32] using h

/-- An even offset has bit 0 clear. -/
theorem bit0_of_even {n : Nat} {off : BitVec n} (h : (rowOfBoth && evenOffset off) = true) : off.getLsbD 0 = false := by
  simpa [rowOfBoth, evenOffset] using h

theorem Encoding.lui (rd : XReg) (imm : BitVec 20) : Encoding.Statement (.lui rd imm) := by
  intro x h
  refine encoding_of_row 0 (encU 0x00000037 rd.num imm) mem_rowsRV32I rfl rfl ?_ ?_
  · cases x <;> simp (disch := decide) [Row.accepts, both, encU, mask_drop]
  · simp (disch := decide) [encU, immU, rdField, field_or, field_place_same, field_place_disjoint]
    simp [field]

theorem Encoding.auipc (rd : XReg) (imm : BitVec 20) : Encoding.Statement (.auipc rd imm) := by
  intro x h
  refine encoding_of_row 1 (encU 0x00000017 rd.num imm) mem_rowsRV32I rfl rfl ?_ ?_
  · cases x <;> simp (disch := decide) [Row.accepts, both, encU, mask_drop]
  · simp (disch := decide) [encU, immU, rdField, field_or, field_place_same, field_place_disjoint]
    simp [field]

theorem Encoding.jal (rd : XReg) (off : BitVec 21) : Encoding.Statement (.jal rd off) := by
  intro x h
  refine encoding_of_row 2 (encJ 0x0000006F rd.num off) mem_rowsRV32I rfl rfl ?_ ?_
  · cases x <;> simp (disch := decide) [Row.accepts, both, encJ, mask_drop]
  · have h0 : off.getLsbD 0 = false := bit0_of_even h
    simp (disch := decide) [encJ, immJ, rdField, field_or, field_place_same, field_place_disjoint]
    simp [field]
    exact immJ_pieces off h0

theorem Encoding.jalr (rd rs1 : XReg) (imm : BitVec 12) : Encoding.Statement (.jalr rd rs1 imm) := by
  intro x h
  refine encoding_of_row 3 (encI 0x00000067 rd.num rs1.num imm) mem_rowsRV32I rfl rfl ?_ ?_
  · cases x <;> simp (disch := decide) [Row.accepts, both, encI, mask_drop]
  · simp (disch := decide) [encI, immI, rdField, rs1Field, field_or, field_place_same, field_place_disjoint]
    simp [field]

theorem Encoding.beq (rs1 rs2 : XReg) (off : BitVec 13) : Encoding.Statement (.beq rs1 rs2 off) := by
  intro x h
  refine encoding_of_row 4 (encB 0x00000063 rs1.num rs2.num off) mem_rowsRV32I rfl rfl ?_ ?_
  · cases x <;> simp (disch := decide) [Row.accepts, both, encB, mask_drop]
  · have h0 : off.getLsbD 0 = false := bit0_of_even h
    simp (disch := decide) [encB, immB, rs1Field, rs2Field, field_or, field_place_same, field_place_disjoint]
    simp [field]
    exact immB_pieces off h0

theorem Encoding.bne (rs1 rs2 : XReg) (off : BitVec 13) : Encoding.Statement (.bne rs1 rs2 off) := by
  intro x h
  refine encoding_of_row 5 (encB 0x00001063 rs1.num rs2.num off) mem_rowsRV32I rfl rfl ?_ ?_
  · cases x <;> simp (disch := decide) [Row.accepts, both, encB, mask_drop]
  · have h0 : off.getLsbD 0 = false := bit0_of_even h
    simp (disch := decide) [encB, immB, rs1Field, rs2Field, field_or, field_place_same, field_place_disjoint]
    simp [field]
    exact immB_pieces off h0

theorem Encoding.blt (rs1 rs2 : XReg) (off : BitVec 13) : Encoding.Statement (.blt rs1 rs2 off) := by
  intro x h
  refine encoding_of_row 6 (encB 0x00004063 rs1.num rs2.num off) mem_rowsRV32I rfl rfl ?_ ?_
  · cases x <;> simp (disch := decide) [Row.accepts, both, encB, mask_drop]
  · have h0 : off.getLsbD 0 = false := bit0_of_even h
    simp (disch := decide) [encB, immB, rs1Field, rs2Field, field_or, field_place_same, field_place_disjoint]
    simp [field]
    exact immB_pieces off h0

theorem Encoding.bge (rs1 rs2 : XReg) (off : BitVec 13) : Encoding.Statement (.bge rs1 rs2 off) := by
  intro x h
  refine encoding_of_row 7 (encB 0x00005063 rs1.num rs2.num off) mem_rowsRV32I rfl rfl ?_ ?_
  · cases x <;> simp (disch := decide) [Row.accepts, both, encB, mask_drop]
  · have h0 : off.getLsbD 0 = false := bit0_of_even h
    simp (disch := decide) [encB, immB, rs1Field, rs2Field, field_or, field_place_same, field_place_disjoint]
    simp [field]
    exact immB_pieces off h0

theorem Encoding.bltu (rs1 rs2 : XReg) (off : BitVec 13) : Encoding.Statement (.bltu rs1 rs2 off) := by
  intro x h
  refine encoding_of_row 8 (encB 0x00006063 rs1.num rs2.num off) mem_rowsRV32I rfl rfl ?_ ?_
  · cases x <;> simp (disch := decide) [Row.accepts, both, encB, mask_drop]
  · have h0 : off.getLsbD 0 = false := bit0_of_even h
    simp (disch := decide) [encB, immB, rs1Field, rs2Field, field_or, field_place_same, field_place_disjoint]
    simp [field]
    exact immB_pieces off h0

theorem Encoding.bgeu (rs1 rs2 : XReg) (off : BitVec 13) : Encoding.Statement (.bgeu rs1 rs2 off) := by
  intro x h
  refine encoding_of_row 9 (encB 0x00007063 rs1.num rs2.num off) mem_rowsRV32I rfl rfl ?_ ?_
  · cases x <;> simp (disch := decide) [Row.accepts, both, encB, mask_drop]
  · have h0 : off.getLsbD 0 = false := bit0_of_even h
    simp (disch := decide) [encB, immB, rs1Field, rs2Field, field_or, field_place_same, field_place_disjoint]
    simp [field]
    exact immB_pieces off h0

theorem Encoding.lb (rd rs1 : XReg) (imm : BitVec 12) : Encoding.Statement (.lb rd rs1 imm) := by
  intro x h
  refine encoding_of_row 10 (encI 0x00000003 rd.num rs1.num imm) mem_rowsRV32I rfl rfl ?_ ?_
  · cases x <;> simp (disch := decide) [Row.accepts, both, encI, mask_drop]
  · simp (disch := decide) [encI, immI, rdField, rs1Field, field_or, field_place_same, field_place_disjoint]
    simp [field]

theorem Encoding.lh (rd rs1 : XReg) (imm : BitVec 12) : Encoding.Statement (.lh rd rs1 imm) := by
  intro x h
  refine encoding_of_row 11 (encI 0x00001003 rd.num rs1.num imm) mem_rowsRV32I rfl rfl ?_ ?_
  · cases x <;> simp (disch := decide) [Row.accepts, both, encI, mask_drop]
  · simp (disch := decide) [encI, immI, rdField, rs1Field, field_or, field_place_same, field_place_disjoint]
    simp [field]

theorem Encoding.lw (rd rs1 : XReg) (imm : BitVec 12) : Encoding.Statement (.lw rd rs1 imm) := by
  intro x h
  refine encoding_of_row 12 (encI 0x00002003 rd.num rs1.num imm) mem_rowsRV32I rfl rfl ?_ ?_
  · cases x <;> simp (disch := decide) [Row.accepts, both, encI, mask_drop]
  · simp (disch := decide) [encI, immI, rdField, rs1Field, field_or, field_place_same, field_place_disjoint]
    simp [field]

theorem Encoding.lbu (rd rs1 : XReg) (imm : BitVec 12) : Encoding.Statement (.lbu rd rs1 imm) := by
  intro x h
  refine encoding_of_row 13 (encI 0x00004003 rd.num rs1.num imm) mem_rowsRV32I rfl rfl ?_ ?_
  · cases x <;> simp (disch := decide) [Row.accepts, both, encI, mask_drop]
  · simp (disch := decide) [encI, immI, rdField, rs1Field, field_or, field_place_same, field_place_disjoint]
    simp [field]

theorem Encoding.lhu (rd rs1 : XReg) (imm : BitVec 12) : Encoding.Statement (.lhu rd rs1 imm) := by
  intro x h
  refine encoding_of_row 14 (encI 0x00005003 rd.num rs1.num imm) mem_rowsRV32I rfl rfl ?_ ?_
  · cases x <;> simp (disch := decide) [Row.accepts, both, encI, mask_drop]
  · simp (disch := decide) [encI, immI, rdField, rs1Field, field_or, field_place_same, field_place_disjoint]
    simp [field]

theorem Encoding.sb (rs1 rs2 : XReg) (imm : BitVec 12) : Encoding.Statement (.sb rs1 rs2 imm) := by
  intro x h
  refine encoding_of_row 15 (encS 0x00000023 rs1.num rs2.num imm) mem_rowsRV32I rfl rfl ?_ ?_
  · cases x <;> simp (disch := decide) [Row.accepts, both, encS, mask_drop]
  · simp (disch := decide) [encS, immS, rs1Field, rs2Field, field_or, field_place_same, field_place_disjoint]
    simp [field, immS_pieces]

theorem Encoding.sh (rs1 rs2 : XReg) (imm : BitVec 12) : Encoding.Statement (.sh rs1 rs2 imm) := by
  intro x h
  refine encoding_of_row 16 (encS 0x00001023 rs1.num rs2.num imm) mem_rowsRV32I rfl rfl ?_ ?_
  · cases x <;> simp (disch := decide) [Row.accepts, both, encS, mask_drop]
  · simp (disch := decide) [encS, immS, rs1Field, rs2Field, field_or, field_place_same, field_place_disjoint]
    simp [field, immS_pieces]

theorem Encoding.sw (rs1 rs2 : XReg) (imm : BitVec 12) : Encoding.Statement (.sw rs1 rs2 imm) := by
  intro x h
  refine encoding_of_row 17 (encS 0x00002023 rs1.num rs2.num imm) mem_rowsRV32I rfl rfl ?_ ?_
  · cases x <;> simp (disch := decide) [Row.accepts, both, encS, mask_drop]
  · simp (disch := decide) [encS, immS, rs1Field, rs2Field, field_or, field_place_same, field_place_disjoint]
    simp [field, immS_pieces]

theorem Encoding.addi (rd rs1 : XReg) (imm : BitVec 12) : Encoding.Statement (.addi rd rs1 imm) := by
  intro x h
  refine encoding_of_row 18 (encI 0x00000013 rd.num rs1.num imm) mem_rowsRV32I rfl rfl ?_ ?_
  · cases x <;> simp (disch := decide) [Row.accepts, both, encI, mask_drop]
  · simp (disch := decide) [encI, immI, rdField, rs1Field, field_or, field_place_same, field_place_disjoint]
    simp [field]

theorem Encoding.slti (rd rs1 : XReg) (imm : BitVec 12) : Encoding.Statement (.slti rd rs1 imm) := by
  intro x h
  refine encoding_of_row 19 (encI 0x00002013 rd.num rs1.num imm) mem_rowsRV32I rfl rfl ?_ ?_
  · cases x <;> simp (disch := decide) [Row.accepts, both, encI, mask_drop]
  · simp (disch := decide) [encI, immI, rdField, rs1Field, field_or, field_place_same, field_place_disjoint]
    simp [field]

theorem Encoding.sltiu (rd rs1 : XReg) (imm : BitVec 12) : Encoding.Statement (.sltiu rd rs1 imm) := by
  intro x h
  refine encoding_of_row 20 (encI 0x00003013 rd.num rs1.num imm) mem_rowsRV32I rfl rfl ?_ ?_
  · cases x <;> simp (disch := decide) [Row.accepts, both, encI, mask_drop]
  · simp (disch := decide) [encI, immI, rdField, rs1Field, field_or, field_place_same, field_place_disjoint]
    simp [field]

theorem Encoding.xori (rd rs1 : XReg) (imm : BitVec 12) : Encoding.Statement (.xori rd rs1 imm) := by
  intro x h
  refine encoding_of_row 21 (encI 0x00004013 rd.num rs1.num imm) mem_rowsRV32I rfl rfl ?_ ?_
  · cases x <;> simp (disch := decide) [Row.accepts, both, encI, mask_drop]
  · simp (disch := decide) [encI, immI, rdField, rs1Field, field_or, field_place_same, field_place_disjoint]
    simp [field]

theorem Encoding.ori (rd rs1 : XReg) (imm : BitVec 12) : Encoding.Statement (.ori rd rs1 imm) := by
  intro x h
  refine encoding_of_row 22 (encI 0x00006013 rd.num rs1.num imm) mem_rowsRV32I rfl rfl ?_ ?_
  · cases x <;> simp (disch := decide) [Row.accepts, both, encI, mask_drop]
  · simp (disch := decide) [encI, immI, rdField, rs1Field, field_or, field_place_same, field_place_disjoint]
    simp [field]

theorem Encoding.andi (rd rs1 : XReg) (imm : BitVec 12) : Encoding.Statement (.andi rd rs1 imm) := by
  intro x h
  refine encoding_of_row 23 (encI 0x00007013 rd.num rs1.num imm) mem_rowsRV32I rfl rfl ?_ ?_
  · cases x <;> simp (disch := decide) [Row.accepts, both, encI, mask_drop]
  · simp (disch := decide) [encI, immI, rdField, rs1Field, field_or, field_place_same, field_place_disjoint]
    simp [field]

theorem Encoding.slli32 (rd rs1 : XReg) (shamt : BitVec 5) : Encoding.Statement (.slli32 rd rs1 shamt) := by
  intro x h
  obtain rfl : x = .rv32 := eq_rv32_of_rowOf32 h
  refine encoding_of_row 24 (encSh5 0x00001013 rd.num rs1.num shamt) mem_rowsRV32I rfl rfl ?_ ?_
  · simp (disch := decide) [Row.accepts, only32, encSh5, mask_drop]
  · simp (disch := decide) [encSh5, rdField, rs1Field, shamt5, field_or, field_place_same, field_place_disjoint]
    simp [field]

theorem Encoding.srli32 (rd rs1 : XReg) (shamt : BitVec 5) : Encoding.Statement (.srli32 rd rs1 shamt) := by
  intro x h
  obtain rfl : x = .rv32 := eq_rv32_of_rowOf32 h
  refine encoding_of_row 25 (encSh5 0x00005013 rd.num rs1.num shamt) mem_rowsRV32I rfl rfl ?_ ?_
  · simp (disch := decide) [Row.accepts, only32, encSh5, mask_drop]
  · simp (disch := decide) [encSh5, rdField, rs1Field, shamt5, field_or, field_place_same, field_place_disjoint]
    simp [field]

theorem Encoding.srai32 (rd rs1 : XReg) (shamt : BitVec 5) : Encoding.Statement (.srai32 rd rs1 shamt) := by
  intro x h
  obtain rfl : x = .rv32 := eq_rv32_of_rowOf32 h
  refine encoding_of_row 26 (encSh5 0x40005013 rd.num rs1.num shamt) mem_rowsRV32I rfl rfl ?_ ?_
  · simp (disch := decide) [Row.accepts, only32, encSh5, mask_drop]
  · simp (disch := decide) [encSh5, rdField, rs1Field, shamt5, field_or, field_place_same, field_place_disjoint]
    simp [field]

theorem Encoding.add (rd rs1 rs2 : XReg) : Encoding.Statement (.add rd rs1 rs2) := by
  intro x h
  refine encoding_of_row 27 (encR 0x00000033 rd.num rs1.num rs2.num) mem_rowsRV32I rfl rfl ?_ ?_
  · cases x <;> simp (disch := decide) [Row.accepts, both, encR, mask_drop]
  · simp (disch := decide) [encR, rdField, rs1Field, rs2Field, field_or, field_place_same, field_place_disjoint]
    simp [field]

theorem Encoding.sub (rd rs1 rs2 : XReg) : Encoding.Statement (.sub rd rs1 rs2) := by
  intro x h
  refine encoding_of_row 28 (encR 0x40000033 rd.num rs1.num rs2.num) mem_rowsRV32I rfl rfl ?_ ?_
  · cases x <;> simp (disch := decide) [Row.accepts, both, encR, mask_drop]
  · simp (disch := decide) [encR, rdField, rs1Field, rs2Field, field_or, field_place_same, field_place_disjoint]
    simp [field]

theorem Encoding.sll (rd rs1 rs2 : XReg) : Encoding.Statement (.sll rd rs1 rs2) := by
  intro x h
  refine encoding_of_row 29 (encR 0x00001033 rd.num rs1.num rs2.num) mem_rowsRV32I rfl rfl ?_ ?_
  · cases x <;> simp (disch := decide) [Row.accepts, both, encR, mask_drop]
  · simp (disch := decide) [encR, rdField, rs1Field, rs2Field, field_or, field_place_same, field_place_disjoint]
    simp [field]

theorem Encoding.slt (rd rs1 rs2 : XReg) : Encoding.Statement (.slt rd rs1 rs2) := by
  intro x h
  refine encoding_of_row 30 (encR 0x00002033 rd.num rs1.num rs2.num) mem_rowsRV32I rfl rfl ?_ ?_
  · cases x <;> simp (disch := decide) [Row.accepts, both, encR, mask_drop]
  · simp (disch := decide) [encR, rdField, rs1Field, rs2Field, field_or, field_place_same, field_place_disjoint]
    simp [field]

theorem Encoding.sltu (rd rs1 rs2 : XReg) : Encoding.Statement (.sltu rd rs1 rs2) := by
  intro x h
  refine encoding_of_row 31 (encR 0x00003033 rd.num rs1.num rs2.num) mem_rowsRV32I rfl rfl ?_ ?_
  · cases x <;> simp (disch := decide) [Row.accepts, both, encR, mask_drop]
  · simp (disch := decide) [encR, rdField, rs1Field, rs2Field, field_or, field_place_same, field_place_disjoint]
    simp [field]

theorem Encoding.xor (rd rs1 rs2 : XReg) : Encoding.Statement (.xor rd rs1 rs2) := by
  intro x h
  refine encoding_of_row 32 (encR 0x00004033 rd.num rs1.num rs2.num) mem_rowsRV32I rfl rfl ?_ ?_
  · cases x <;> simp (disch := decide) [Row.accepts, both, encR, mask_drop]
  · simp (disch := decide) [encR, rdField, rs1Field, rs2Field, field_or, field_place_same, field_place_disjoint]
    simp [field]

theorem Encoding.srl (rd rs1 rs2 : XReg) : Encoding.Statement (.srl rd rs1 rs2) := by
  intro x h
  refine encoding_of_row 33 (encR 0x00005033 rd.num rs1.num rs2.num) mem_rowsRV32I rfl rfl ?_ ?_
  · cases x <;> simp (disch := decide) [Row.accepts, both, encR, mask_drop]
  · simp (disch := decide) [encR, rdField, rs1Field, rs2Field, field_or, field_place_same, field_place_disjoint]
    simp [field]

theorem Encoding.sra (rd rs1 rs2 : XReg) : Encoding.Statement (.sra rd rs1 rs2) := by
  intro x h
  refine encoding_of_row 34 (encR 0x40005033 rd.num rs1.num rs2.num) mem_rowsRV32I rfl rfl ?_ ?_
  · cases x <;> simp (disch := decide) [Row.accepts, both, encR, mask_drop]
  · simp (disch := decide) [encR, rdField, rs1Field, rs2Field, field_or, field_place_same, field_place_disjoint]
    simp [field]

theorem Encoding.or (rd rs1 rs2 : XReg) : Encoding.Statement (.or rd rs1 rs2) := by
  intro x h
  refine encoding_of_row 35 (encR 0x00006033 rd.num rs1.num rs2.num) mem_rowsRV32I rfl rfl ?_ ?_
  · cases x <;> simp (disch := decide) [Row.accepts, both, encR, mask_drop]
  · simp (disch := decide) [encR, rdField, rs1Field, rs2Field, field_or, field_place_same, field_place_disjoint]
    simp [field]

theorem Encoding.and (rd rs1 rs2 : XReg) : Encoding.Statement (.and rd rs1 rs2) := by
  intro x h
  refine encoding_of_row 36 (encR 0x00007033 rd.num rs1.num rs2.num) mem_rowsRV32I rfl rfl ?_ ?_
  · cases x <;> simp (disch := decide) [Row.accepts, both, encR, mask_drop]
  · simp (disch := decide) [encR, rdField, rs1Field, rs2Field, field_or, field_place_same, field_place_disjoint]
    simp [field]

theorem Encoding.fence (pred succ : BitVec 4) : Encoding.Statement (.fence pred succ) := by
  intro x h
  refine encoding_of_row 37 (encFence 0x0000000F pred succ) mem_rowsRV32I rfl rfl ?_ ?_
  · cases x <;> simp (disch := decide) [Row.accepts, both, encFence, mask_drop]
  · simp (disch := decide) [encFence, predField, succField, field_or, field_place_same, field_place_disjoint]
    simp [field]

theorem Encoding.fenceI : Encoding.Statement .fenceI := by
  intro x h
  refine encoding_of_row 38 0x0000100F mem_rowsRV32I rfl rfl ?_ ?_
  · cases x <;> rfl
  · rfl

theorem Encoding.ecall : Encoding.Statement .ecall := by
  intro x h
  refine encoding_of_row 39 0x00000073 mem_rowsRV32I rfl rfl ?_ ?_
  · cases x <;> rfl
  · rfl

theorem Encoding.ebreak : Encoding.Statement .ebreak := by
  intro x h
  refine encoding_of_row 40 0x00100073 mem_rowsRV32I rfl rfl ?_ ?_
  · cases x <;> rfl
  · rfl

theorem Encoding.lwu (rd rs1 : XReg) (imm : BitVec 12) : Encoding.Statement (.lwu rd rs1 imm) := by
  intro x h
  obtain rfl : x = .rv64 := eq_rv64_of_rowOf64 h
  refine encoding_of_row 0 (encI 0x00006003 rd.num rs1.num imm) mem_rowsRV64I rfl rfl ?_ ?_
  · simp (disch := decide) [Row.accepts, only64, encI, mask_drop]
  · simp (disch := decide) [encI, immI, rdField, rs1Field, field_or, field_place_same, field_place_disjoint]
    simp [field]

theorem Encoding.ld (rd rs1 : XReg) (imm : BitVec 12) : Encoding.Statement (.ld rd rs1 imm) := by
  intro x h
  obtain rfl : x = .rv64 := eq_rv64_of_rowOf64 h
  refine encoding_of_row 1 (encI 0x00003003 rd.num rs1.num imm) mem_rowsRV64I rfl rfl ?_ ?_
  · simp (disch := decide) [Row.accepts, only64, encI, mask_drop]
  · simp (disch := decide) [encI, immI, rdField, rs1Field, field_or, field_place_same, field_place_disjoint]
    simp [field]

theorem Encoding.sd (rs1 rs2 : XReg) (imm : BitVec 12) : Encoding.Statement (.sd rs1 rs2 imm) := by
  intro x h
  obtain rfl : x = .rv64 := eq_rv64_of_rowOf64 h
  refine encoding_of_row 2 (encS 0x00003023 rs1.num rs2.num imm) mem_rowsRV64I rfl rfl ?_ ?_
  · simp (disch := decide) [Row.accepts, only64, encS, mask_drop]
  · simp (disch := decide) [encS, immS, rs1Field, rs2Field, field_or, field_place_same, field_place_disjoint]
    simp [field, immS_pieces]

theorem Encoding.slli64 (rd rs1 : XReg) (shamt : BitVec 6) : Encoding.Statement (.slli64 rd rs1 shamt) := by
  intro x h
  obtain rfl : x = .rv64 := eq_rv64_of_rowOf64 h
  refine encoding_of_row 3 (encSh6 0x00001013 rd.num rs1.num shamt) mem_rowsRV64I rfl rfl ?_ ?_
  · simp (disch := decide) [Row.accepts, only64, encSh6, mask_drop]
  · simp (disch := decide) [encSh6, rdField, rs1Field, shamt6, field_or, field_place_same, field_place_disjoint]
    simp [field]

theorem Encoding.srli64 (rd rs1 : XReg) (shamt : BitVec 6) : Encoding.Statement (.srli64 rd rs1 shamt) := by
  intro x h
  obtain rfl : x = .rv64 := eq_rv64_of_rowOf64 h
  refine encoding_of_row 4 (encSh6 0x00005013 rd.num rs1.num shamt) mem_rowsRV64I rfl rfl ?_ ?_
  · simp (disch := decide) [Row.accepts, only64, encSh6, mask_drop]
  · simp (disch := decide) [encSh6, rdField, rs1Field, shamt6, field_or, field_place_same, field_place_disjoint]
    simp [field]

theorem Encoding.srai64 (rd rs1 : XReg) (shamt : BitVec 6) : Encoding.Statement (.srai64 rd rs1 shamt) := by
  intro x h
  obtain rfl : x = .rv64 := eq_rv64_of_rowOf64 h
  refine encoding_of_row 5 (encSh6 0x40005013 rd.num rs1.num shamt) mem_rowsRV64I rfl rfl ?_ ?_
  · simp (disch := decide) [Row.accepts, only64, encSh6, mask_drop]
  · simp (disch := decide) [encSh6, rdField, rs1Field, shamt6, field_or, field_place_same, field_place_disjoint]
    simp [field]

theorem Encoding.addiw (rd rs1 : XReg) (imm : BitVec 12) : Encoding.Statement (.addiw rd rs1 imm) := by
  intro x h
  obtain rfl : x = .rv64 := eq_rv64_of_rowOf64 h
  refine encoding_of_row 6 (encI 0x0000001B rd.num rs1.num imm) mem_rowsRV64I rfl rfl ?_ ?_
  · simp (disch := decide) [Row.accepts, only64, encI, mask_drop]
  · simp (disch := decide) [encI, immI, rdField, rs1Field, field_or, field_place_same, field_place_disjoint]
    simp [field]

theorem Encoding.slliw (rd rs1 : XReg) (shamt : BitVec 5) : Encoding.Statement (.slliw rd rs1 shamt) := by
  intro x h
  obtain rfl : x = .rv64 := eq_rv64_of_rowOf64 h
  refine encoding_of_row 7 (encSh5 0x0000101B rd.num rs1.num shamt) mem_rowsRV64I rfl rfl ?_ ?_
  · simp (disch := decide) [Row.accepts, only64, encSh5, mask_drop]
  · simp (disch := decide) [encSh5, rdField, rs1Field, shamt5, field_or, field_place_same, field_place_disjoint]
    simp [field]

theorem Encoding.srliw (rd rs1 : XReg) (shamt : BitVec 5) : Encoding.Statement (.srliw rd rs1 shamt) := by
  intro x h
  obtain rfl : x = .rv64 := eq_rv64_of_rowOf64 h
  refine encoding_of_row 8 (encSh5 0x0000501B rd.num rs1.num shamt) mem_rowsRV64I rfl rfl ?_ ?_
  · simp (disch := decide) [Row.accepts, only64, encSh5, mask_drop]
  · simp (disch := decide) [encSh5, rdField, rs1Field, shamt5, field_or, field_place_same, field_place_disjoint]
    simp [field]

theorem Encoding.sraiw (rd rs1 : XReg) (shamt : BitVec 5) : Encoding.Statement (.sraiw rd rs1 shamt) := by
  intro x h
  obtain rfl : x = .rv64 := eq_rv64_of_rowOf64 h
  refine encoding_of_row 9 (encSh5 0x4000501B rd.num rs1.num shamt) mem_rowsRV64I rfl rfl ?_ ?_
  · simp (disch := decide) [Row.accepts, only64, encSh5, mask_drop]
  · simp (disch := decide) [encSh5, rdField, rs1Field, shamt5, field_or, field_place_same, field_place_disjoint]
    simp [field]

theorem Encoding.addw (rd rs1 rs2 : XReg) : Encoding.Statement (.addw rd rs1 rs2) := by
  intro x h
  obtain rfl : x = .rv64 := eq_rv64_of_rowOf64 h
  refine encoding_of_row 10 (encR 0x0000003B rd.num rs1.num rs2.num) mem_rowsRV64I rfl rfl ?_ ?_
  · simp (disch := decide) [Row.accepts, only64, encR, mask_drop]
  · simp (disch := decide) [encR, rdField, rs1Field, rs2Field, field_or, field_place_same, field_place_disjoint]
    simp [field]

theorem Encoding.subw (rd rs1 rs2 : XReg) : Encoding.Statement (.subw rd rs1 rs2) := by
  intro x h
  obtain rfl : x = .rv64 := eq_rv64_of_rowOf64 h
  refine encoding_of_row 11 (encR 0x4000003B rd.num rs1.num rs2.num) mem_rowsRV64I rfl rfl ?_ ?_
  · simp (disch := decide) [Row.accepts, only64, encR, mask_drop]
  · simp (disch := decide) [encR, rdField, rs1Field, rs2Field, field_or, field_place_same, field_place_disjoint]
    simp [field]

theorem Encoding.sllw (rd rs1 rs2 : XReg) : Encoding.Statement (.sllw rd rs1 rs2) := by
  intro x h
  obtain rfl : x = .rv64 := eq_rv64_of_rowOf64 h
  refine encoding_of_row 12 (encR 0x0000103B rd.num rs1.num rs2.num) mem_rowsRV64I rfl rfl ?_ ?_
  · simp (disch := decide) [Row.accepts, only64, encR, mask_drop]
  · simp (disch := decide) [encR, rdField, rs1Field, rs2Field, field_or, field_place_same, field_place_disjoint]
    simp [field]

theorem Encoding.srlw (rd rs1 rs2 : XReg) : Encoding.Statement (.srlw rd rs1 rs2) := by
  intro x h
  obtain rfl : x = .rv64 := eq_rv64_of_rowOf64 h
  refine encoding_of_row 13 (encR 0x0000503B rd.num rs1.num rs2.num) mem_rowsRV64I rfl rfl ?_ ?_
  · simp (disch := decide) [Row.accepts, only64, encR, mask_drop]
  · simp (disch := decide) [encR, rdField, rs1Field, rs2Field, field_or, field_place_same, field_place_disjoint]
    simp [field]

theorem Encoding.sraw (rd rs1 rs2 : XReg) : Encoding.Statement (.sraw rd rs1 rs2) := by
  intro x h
  obtain rfl : x = .rv64 := eq_rv64_of_rowOf64 h
  refine encoding_of_row 14 (encR 0x4000503B rd.num rs1.num rs2.num) mem_rowsRV64I rfl rfl ?_ ?_
  · simp (disch := decide) [Row.accepts, only64, encR, mask_drop]
  · simp (disch := decide) [encR, rdField, rs1Field, rs2Field, field_or, field_place_same, field_place_disjoint]
    simp [field]

theorem Encoding.mul (rd rs1 rs2 : XReg) : Encoding.Statement (.mul rd rs1 rs2) := by
  intro x h
  refine encoding_of_row 0 (encR 0x02000033 rd.num rs1.num rs2.num) mem_rowsRV32M rfl rfl ?_ ?_
  · cases x <;> simp (disch := decide) [Row.accepts, both, encR, mask_drop]
  · simp (disch := decide) [encR, rdField, rs1Field, rs2Field, field_or, field_place_same, field_place_disjoint]
    simp [field]

theorem Encoding.mulh (rd rs1 rs2 : XReg) : Encoding.Statement (.mulh rd rs1 rs2) := by
  intro x h
  refine encoding_of_row 1 (encR 0x02001033 rd.num rs1.num rs2.num) mem_rowsRV32M rfl rfl ?_ ?_
  · cases x <;> simp (disch := decide) [Row.accepts, both, encR, mask_drop]
  · simp (disch := decide) [encR, rdField, rs1Field, rs2Field, field_or, field_place_same, field_place_disjoint]
    simp [field]

theorem Encoding.mulhsu (rd rs1 rs2 : XReg) : Encoding.Statement (.mulhsu rd rs1 rs2) := by
  intro x h
  refine encoding_of_row 2 (encR 0x02002033 rd.num rs1.num rs2.num) mem_rowsRV32M rfl rfl ?_ ?_
  · cases x <;> simp (disch := decide) [Row.accepts, both, encR, mask_drop]
  · simp (disch := decide) [encR, rdField, rs1Field, rs2Field, field_or, field_place_same, field_place_disjoint]
    simp [field]

theorem Encoding.mulhu (rd rs1 rs2 : XReg) : Encoding.Statement (.mulhu rd rs1 rs2) := by
  intro x h
  refine encoding_of_row 3 (encR 0x02003033 rd.num rs1.num rs2.num) mem_rowsRV32M rfl rfl ?_ ?_
  · cases x <;> simp (disch := decide) [Row.accepts, both, encR, mask_drop]
  · simp (disch := decide) [encR, rdField, rs1Field, rs2Field, field_or, field_place_same, field_place_disjoint]
    simp [field]

theorem Encoding.div (rd rs1 rs2 : XReg) : Encoding.Statement (.div rd rs1 rs2) := by
  intro x h
  refine encoding_of_row 4 (encR 0x02004033 rd.num rs1.num rs2.num) mem_rowsRV32M rfl rfl ?_ ?_
  · cases x <;> simp (disch := decide) [Row.accepts, both, encR, mask_drop]
  · simp (disch := decide) [encR, rdField, rs1Field, rs2Field, field_or, field_place_same, field_place_disjoint]
    simp [field]

theorem Encoding.divu (rd rs1 rs2 : XReg) : Encoding.Statement (.divu rd rs1 rs2) := by
  intro x h
  refine encoding_of_row 5 (encR 0x02005033 rd.num rs1.num rs2.num) mem_rowsRV32M rfl rfl ?_ ?_
  · cases x <;> simp (disch := decide) [Row.accepts, both, encR, mask_drop]
  · simp (disch := decide) [encR, rdField, rs1Field, rs2Field, field_or, field_place_same, field_place_disjoint]
    simp [field]

theorem Encoding.rem (rd rs1 rs2 : XReg) : Encoding.Statement (.rem rd rs1 rs2) := by
  intro x h
  refine encoding_of_row 6 (encR 0x02006033 rd.num rs1.num rs2.num) mem_rowsRV32M rfl rfl ?_ ?_
  · cases x <;> simp (disch := decide) [Row.accepts, both, encR, mask_drop]
  · simp (disch := decide) [encR, rdField, rs1Field, rs2Field, field_or, field_place_same, field_place_disjoint]
    simp [field]

theorem Encoding.remu (rd rs1 rs2 : XReg) : Encoding.Statement (.remu rd rs1 rs2) := by
  intro x h
  refine encoding_of_row 7 (encR 0x02007033 rd.num rs1.num rs2.num) mem_rowsRV32M rfl rfl ?_ ?_
  · cases x <;> simp (disch := decide) [Row.accepts, both, encR, mask_drop]
  · simp (disch := decide) [encR, rdField, rs1Field, rs2Field, field_or, field_place_same, field_place_disjoint]
    simp [field]

theorem Encoding.mulw (rd rs1 rs2 : XReg) : Encoding.Statement (.mulw rd rs1 rs2) := by
  intro x h
  obtain rfl : x = .rv64 := eq_rv64_of_rowOf64 h
  refine encoding_of_row 0 (encR 0x0200003B rd.num rs1.num rs2.num) mem_rowsRV64M rfl rfl ?_ ?_
  · simp (disch := decide) [Row.accepts, only64, encR, mask_drop]
  · simp (disch := decide) [encR, rdField, rs1Field, rs2Field, field_or, field_place_same, field_place_disjoint]
    simp [field]

theorem Encoding.divw (rd rs1 rs2 : XReg) : Encoding.Statement (.divw rd rs1 rs2) := by
  intro x h
  obtain rfl : x = .rv64 := eq_rv64_of_rowOf64 h
  refine encoding_of_row 1 (encR 0x0200403B rd.num rs1.num rs2.num) mem_rowsRV64M rfl rfl ?_ ?_
  · simp (disch := decide) [Row.accepts, only64, encR, mask_drop]
  · simp (disch := decide) [encR, rdField, rs1Field, rs2Field, field_or, field_place_same, field_place_disjoint]
    simp [field]

theorem Encoding.divuw (rd rs1 rs2 : XReg) : Encoding.Statement (.divuw rd rs1 rs2) := by
  intro x h
  obtain rfl : x = .rv64 := eq_rv64_of_rowOf64 h
  refine encoding_of_row 2 (encR 0x0200503B rd.num rs1.num rs2.num) mem_rowsRV64M rfl rfl ?_ ?_
  · simp (disch := decide) [Row.accepts, only64, encR, mask_drop]
  · simp (disch := decide) [encR, rdField, rs1Field, rs2Field, field_or, field_place_same, field_place_disjoint]
    simp [field]

theorem Encoding.remw (rd rs1 rs2 : XReg) : Encoding.Statement (.remw rd rs1 rs2) := by
  intro x h
  obtain rfl : x = .rv64 := eq_rv64_of_rowOf64 h
  refine encoding_of_row 3 (encR 0x0200603B rd.num rs1.num rs2.num) mem_rowsRV64M rfl rfl ?_ ?_
  · simp (disch := decide) [Row.accepts, only64, encR, mask_drop]
  · simp (disch := decide) [encR, rdField, rs1Field, rs2Field, field_or, field_place_same, field_place_disjoint]
    simp [field]

theorem Encoding.remuw (rd rs1 rs2 : XReg) : Encoding.Statement (.remuw rd rs1 rs2) := by
  intro x h
  obtain rfl : x = .rv64 := eq_rv64_of_rowOf64 h
  refine encoding_of_row 4 (encR 0x0200703B rd.num rs1.num rs2.num) mem_rowsRV64M rfl rfl ?_ ?_
  · simp (disch := decide) [Row.accepts, only64, encR, mask_drop]
  · simp (disch := decide) [encR, rdField, rs1Field, rs2Field, field_or, field_place_same, field_place_disjoint]
    simp [field]

theorem Encoding.lrW (aq rl : Bool) (rd rs1 : XReg) : Encoding.Statement (.lrW aq rl rd rs1) := by
  intro x h
  refine encoding_of_row 0 (encAmo1 0x1000202F aq rl rd.num rs1.num) mem_rowsRV32A rfl rfl ?_ ?_
  · cases x <;> simp (disch := decide) [Row.accepts, both, encAmo1, placeBit, mask_drop]
  · simp (disch := decide) [encAmo1, placeBit, rdField, rs1Field, field_or, field_place_same, field_place_disjoint,
      aqBit_or, rlBit_or, aqBit_place_same, rlBit_place_same, aqBit_place_disjoint, rlBit_place_disjoint]
    simp [field, aqBit, rlBit]

theorem Encoding.scW (aq rl : Bool) (rd rs1 rs2 : XReg) : Encoding.Statement (.scW aq rl rd rs1 rs2) := by
  intro x h
  refine encoding_of_row 1 (encAmo2 0x1800202F aq rl rd.num rs1.num rs2.num) mem_rowsRV32A rfl rfl ?_ ?_
  · cases x <;> simp (disch := decide) [Row.accepts, both, encAmo2, placeBit, mask_drop]
  · simp (disch := decide) [encAmo2, placeBit, rdField, rs1Field, rs2Field, field_or, field_place_same, field_place_disjoint,
      aqBit_or, rlBit_or, aqBit_place_same, rlBit_place_same, aqBit_place_disjoint, rlBit_place_disjoint]
    simp [field, aqBit, rlBit]

theorem Encoding.amoswapW (aq rl : Bool) (rd rs1 rs2 : XReg) : Encoding.Statement (.amoswapW aq rl rd rs1 rs2) := by
  intro x h
  refine encoding_of_row 2 (encAmo2 0x0800202F aq rl rd.num rs1.num rs2.num) mem_rowsRV32A rfl rfl ?_ ?_
  · cases x <;> simp (disch := decide) [Row.accepts, both, encAmo2, placeBit, mask_drop]
  · simp (disch := decide) [encAmo2, placeBit, rdField, rs1Field, rs2Field, field_or, field_place_same, field_place_disjoint,
      aqBit_or, rlBit_or, aqBit_place_same, rlBit_place_same, aqBit_place_disjoint, rlBit_place_disjoint]
    simp [field, aqBit, rlBit]

theorem Encoding.amoaddW (aq rl : Bool) (rd rs1 rs2 : XReg) : Encoding.Statement (.amoaddW aq rl rd rs1 rs2) := by
  intro x h
  refine encoding_of_row 3 (encAmo2 0x0000202F aq rl rd.num rs1.num rs2.num) mem_rowsRV32A rfl rfl ?_ ?_
  · cases x <;> simp (disch := decide) [Row.accepts, both, encAmo2, placeBit, mask_drop]
  · simp (disch := decide) [encAmo2, placeBit, rdField, rs1Field, rs2Field, field_or, field_place_same, field_place_disjoint,
      aqBit_or, rlBit_or, aqBit_place_same, rlBit_place_same, aqBit_place_disjoint, rlBit_place_disjoint]
    simp [field, aqBit, rlBit]

theorem Encoding.amoxorW (aq rl : Bool) (rd rs1 rs2 : XReg) : Encoding.Statement (.amoxorW aq rl rd rs1 rs2) := by
  intro x h
  refine encoding_of_row 4 (encAmo2 0x2000202F aq rl rd.num rs1.num rs2.num) mem_rowsRV32A rfl rfl ?_ ?_
  · cases x <;> simp (disch := decide) [Row.accepts, both, encAmo2, placeBit, mask_drop]
  · simp (disch := decide) [encAmo2, placeBit, rdField, rs1Field, rs2Field, field_or, field_place_same, field_place_disjoint,
      aqBit_or, rlBit_or, aqBit_place_same, rlBit_place_same, aqBit_place_disjoint, rlBit_place_disjoint]
    simp [field, aqBit, rlBit]

theorem Encoding.amoorW (aq rl : Bool) (rd rs1 rs2 : XReg) : Encoding.Statement (.amoorW aq rl rd rs1 rs2) := by
  intro x h
  refine encoding_of_row 5 (encAmo2 0x4000202F aq rl rd.num rs1.num rs2.num) mem_rowsRV32A rfl rfl ?_ ?_
  · cases x <;> simp (disch := decide) [Row.accepts, both, encAmo2, placeBit, mask_drop]
  · simp (disch := decide) [encAmo2, placeBit, rdField, rs1Field, rs2Field, field_or, field_place_same, field_place_disjoint,
      aqBit_or, rlBit_or, aqBit_place_same, rlBit_place_same, aqBit_place_disjoint, rlBit_place_disjoint]
    simp [field, aqBit, rlBit]

theorem Encoding.amoandW (aq rl : Bool) (rd rs1 rs2 : XReg) : Encoding.Statement (.amoandW aq rl rd rs1 rs2) := by
  intro x h
  refine encoding_of_row 6 (encAmo2 0x6000202F aq rl rd.num rs1.num rs2.num) mem_rowsRV32A rfl rfl ?_ ?_
  · cases x <;> simp (disch := decide) [Row.accepts, both, encAmo2, placeBit, mask_drop]
  · simp (disch := decide) [encAmo2, placeBit, rdField, rs1Field, rs2Field, field_or, field_place_same, field_place_disjoint,
      aqBit_or, rlBit_or, aqBit_place_same, rlBit_place_same, aqBit_place_disjoint, rlBit_place_disjoint]
    simp [field, aqBit, rlBit]

theorem Encoding.amominW (aq rl : Bool) (rd rs1 rs2 : XReg) : Encoding.Statement (.amominW aq rl rd rs1 rs2) := by
  intro x h
  refine encoding_of_row 7 (encAmo2 0x8000202F aq rl rd.num rs1.num rs2.num) mem_rowsRV32A rfl rfl ?_ ?_
  · cases x <;> simp (disch := decide) [Row.accepts, both, encAmo2, placeBit, mask_drop]
  · simp (disch := decide) [encAmo2, placeBit, rdField, rs1Field, rs2Field, field_or, field_place_same, field_place_disjoint,
      aqBit_or, rlBit_or, aqBit_place_same, rlBit_place_same, aqBit_place_disjoint, rlBit_place_disjoint]
    simp [field, aqBit, rlBit]

theorem Encoding.amomaxW (aq rl : Bool) (rd rs1 rs2 : XReg) : Encoding.Statement (.amomaxW aq rl rd rs1 rs2) := by
  intro x h
  refine encoding_of_row 8 (encAmo2 0xA000202F aq rl rd.num rs1.num rs2.num) mem_rowsRV32A rfl rfl ?_ ?_
  · cases x <;> simp (disch := decide) [Row.accepts, both, encAmo2, placeBit, mask_drop]
  · simp (disch := decide) [encAmo2, placeBit, rdField, rs1Field, rs2Field, field_or, field_place_same, field_place_disjoint,
      aqBit_or, rlBit_or, aqBit_place_same, rlBit_place_same, aqBit_place_disjoint, rlBit_place_disjoint]
    simp [field, aqBit, rlBit]

theorem Encoding.amominuW (aq rl : Bool) (rd rs1 rs2 : XReg) : Encoding.Statement (.amominuW aq rl rd rs1 rs2) := by
  intro x h
  refine encoding_of_row 9 (encAmo2 0xC000202F aq rl rd.num rs1.num rs2.num) mem_rowsRV32A rfl rfl ?_ ?_
  · cases x <;> simp (disch := decide) [Row.accepts, both, encAmo2, placeBit, mask_drop]
  · simp (disch := decide) [encAmo2, placeBit, rdField, rs1Field, rs2Field, field_or, field_place_same, field_place_disjoint,
      aqBit_or, rlBit_or, aqBit_place_same, rlBit_place_same, aqBit_place_disjoint, rlBit_place_disjoint]
    simp [field, aqBit, rlBit]

theorem Encoding.amomaxuW (aq rl : Bool) (rd rs1 rs2 : XReg) : Encoding.Statement (.amomaxuW aq rl rd rs1 rs2) := by
  intro x h
  refine encoding_of_row 10 (encAmo2 0xE000202F aq rl rd.num rs1.num rs2.num) mem_rowsRV32A rfl rfl ?_ ?_
  · cases x <;> simp (disch := decide) [Row.accepts, both, encAmo2, placeBit, mask_drop]
  · simp (disch := decide) [encAmo2, placeBit, rdField, rs1Field, rs2Field, field_or, field_place_same, field_place_disjoint,
      aqBit_or, rlBit_or, aqBit_place_same, rlBit_place_same, aqBit_place_disjoint, rlBit_place_disjoint]
    simp [field, aqBit, rlBit]

theorem Encoding.lrD (aq rl : Bool) (rd rs1 : XReg) : Encoding.Statement (.lrD aq rl rd rs1) := by
  intro x h
  obtain rfl : x = .rv64 := eq_rv64_of_rowOf64 h
  refine encoding_of_row 0 (encAmo1 0x1000302F aq rl rd.num rs1.num) mem_rowsRV64A rfl rfl ?_ ?_
  · simp (disch := decide) [Row.accepts, only64, encAmo1, placeBit, mask_drop]
  · simp (disch := decide) [encAmo1, placeBit, rdField, rs1Field, field_or, field_place_same, field_place_disjoint,
      aqBit_or, rlBit_or, aqBit_place_same, rlBit_place_same, aqBit_place_disjoint, rlBit_place_disjoint]
    simp [field, aqBit, rlBit]

theorem Encoding.scD (aq rl : Bool) (rd rs1 rs2 : XReg) : Encoding.Statement (.scD aq rl rd rs1 rs2) := by
  intro x h
  obtain rfl : x = .rv64 := eq_rv64_of_rowOf64 h
  refine encoding_of_row 1 (encAmo2 0x1800302F aq rl rd.num rs1.num rs2.num) mem_rowsRV64A rfl rfl ?_ ?_
  · simp (disch := decide) [Row.accepts, only64, encAmo2, placeBit, mask_drop]
  · simp (disch := decide) [encAmo2, placeBit, rdField, rs1Field, rs2Field, field_or, field_place_same, field_place_disjoint,
      aqBit_or, rlBit_or, aqBit_place_same, rlBit_place_same, aqBit_place_disjoint, rlBit_place_disjoint]
    simp [field, aqBit, rlBit]

theorem Encoding.amoswapD (aq rl : Bool) (rd rs1 rs2 : XReg) : Encoding.Statement (.amoswapD aq rl rd rs1 rs2) := by
  intro x h
  obtain rfl : x = .rv64 := eq_rv64_of_rowOf64 h
  refine encoding_of_row 2 (encAmo2 0x0800302F aq rl rd.num rs1.num rs2.num) mem_rowsRV64A rfl rfl ?_ ?_
  · simp (disch := decide) [Row.accepts, only64, encAmo2, placeBit, mask_drop]
  · simp (disch := decide) [encAmo2, placeBit, rdField, rs1Field, rs2Field, field_or, field_place_same, field_place_disjoint,
      aqBit_or, rlBit_or, aqBit_place_same, rlBit_place_same, aqBit_place_disjoint, rlBit_place_disjoint]
    simp [field, aqBit, rlBit]

theorem Encoding.amoaddD (aq rl : Bool) (rd rs1 rs2 : XReg) : Encoding.Statement (.amoaddD aq rl rd rs1 rs2) := by
  intro x h
  obtain rfl : x = .rv64 := eq_rv64_of_rowOf64 h
  refine encoding_of_row 3 (encAmo2 0x0000302F aq rl rd.num rs1.num rs2.num) mem_rowsRV64A rfl rfl ?_ ?_
  · simp (disch := decide) [Row.accepts, only64, encAmo2, placeBit, mask_drop]
  · simp (disch := decide) [encAmo2, placeBit, rdField, rs1Field, rs2Field, field_or, field_place_same, field_place_disjoint,
      aqBit_or, rlBit_or, aqBit_place_same, rlBit_place_same, aqBit_place_disjoint, rlBit_place_disjoint]
    simp [field, aqBit, rlBit]

theorem Encoding.amoxorD (aq rl : Bool) (rd rs1 rs2 : XReg) : Encoding.Statement (.amoxorD aq rl rd rs1 rs2) := by
  intro x h
  obtain rfl : x = .rv64 := eq_rv64_of_rowOf64 h
  refine encoding_of_row 4 (encAmo2 0x2000302F aq rl rd.num rs1.num rs2.num) mem_rowsRV64A rfl rfl ?_ ?_
  · simp (disch := decide) [Row.accepts, only64, encAmo2, placeBit, mask_drop]
  · simp (disch := decide) [encAmo2, placeBit, rdField, rs1Field, rs2Field, field_or, field_place_same, field_place_disjoint,
      aqBit_or, rlBit_or, aqBit_place_same, rlBit_place_same, aqBit_place_disjoint, rlBit_place_disjoint]
    simp [field, aqBit, rlBit]

theorem Encoding.amoorD (aq rl : Bool) (rd rs1 rs2 : XReg) : Encoding.Statement (.amoorD aq rl rd rs1 rs2) := by
  intro x h
  obtain rfl : x = .rv64 := eq_rv64_of_rowOf64 h
  refine encoding_of_row 5 (encAmo2 0x4000302F aq rl rd.num rs1.num rs2.num) mem_rowsRV64A rfl rfl ?_ ?_
  · simp (disch := decide) [Row.accepts, only64, encAmo2, placeBit, mask_drop]
  · simp (disch := decide) [encAmo2, placeBit, rdField, rs1Field, rs2Field, field_or, field_place_same, field_place_disjoint,
      aqBit_or, rlBit_or, aqBit_place_same, rlBit_place_same, aqBit_place_disjoint, rlBit_place_disjoint]
    simp [field, aqBit, rlBit]

theorem Encoding.amoandD (aq rl : Bool) (rd rs1 rs2 : XReg) : Encoding.Statement (.amoandD aq rl rd rs1 rs2) := by
  intro x h
  obtain rfl : x = .rv64 := eq_rv64_of_rowOf64 h
  refine encoding_of_row 6 (encAmo2 0x6000302F aq rl rd.num rs1.num rs2.num) mem_rowsRV64A rfl rfl ?_ ?_
  · simp (disch := decide) [Row.accepts, only64, encAmo2, placeBit, mask_drop]
  · simp (disch := decide) [encAmo2, placeBit, rdField, rs1Field, rs2Field, field_or, field_place_same, field_place_disjoint,
      aqBit_or, rlBit_or, aqBit_place_same, rlBit_place_same, aqBit_place_disjoint, rlBit_place_disjoint]
    simp [field, aqBit, rlBit]

theorem Encoding.amominD (aq rl : Bool) (rd rs1 rs2 : XReg) : Encoding.Statement (.amominD aq rl rd rs1 rs2) := by
  intro x h
  obtain rfl : x = .rv64 := eq_rv64_of_rowOf64 h
  refine encoding_of_row 7 (encAmo2 0x8000302F aq rl rd.num rs1.num rs2.num) mem_rowsRV64A rfl rfl ?_ ?_
  · simp (disch := decide) [Row.accepts, only64, encAmo2, placeBit, mask_drop]
  · simp (disch := decide) [encAmo2, placeBit, rdField, rs1Field, rs2Field, field_or, field_place_same, field_place_disjoint,
      aqBit_or, rlBit_or, aqBit_place_same, rlBit_place_same, aqBit_place_disjoint, rlBit_place_disjoint]
    simp [field, aqBit, rlBit]

theorem Encoding.amomaxD (aq rl : Bool) (rd rs1 rs2 : XReg) : Encoding.Statement (.amomaxD aq rl rd rs1 rs2) := by
  intro x h
  obtain rfl : x = .rv64 := eq_rv64_of_rowOf64 h
  refine encoding_of_row 8 (encAmo2 0xA000302F aq rl rd.num rs1.num rs2.num) mem_rowsRV64A rfl rfl ?_ ?_
  · simp (disch := decide) [Row.accepts, only64, encAmo2, placeBit, mask_drop]
  · simp (disch := decide) [encAmo2, placeBit, rdField, rs1Field, rs2Field, field_or, field_place_same, field_place_disjoint,
      aqBit_or, rlBit_or, aqBit_place_same, rlBit_place_same, aqBit_place_disjoint, rlBit_place_disjoint]
    simp [field, aqBit, rlBit]

theorem Encoding.amominuD (aq rl : Bool) (rd rs1 rs2 : XReg) : Encoding.Statement (.amominuD aq rl rd rs1 rs2) := by
  intro x h
  obtain rfl : x = .rv64 := eq_rv64_of_rowOf64 h
  refine encoding_of_row 9 (encAmo2 0xC000302F aq rl rd.num rs1.num rs2.num) mem_rowsRV64A rfl rfl ?_ ?_
  · simp (disch := decide) [Row.accepts, only64, encAmo2, placeBit, mask_drop]
  · simp (disch := decide) [encAmo2, placeBit, rdField, rs1Field, rs2Field, field_or, field_place_same, field_place_disjoint,
      aqBit_or, rlBit_or, aqBit_place_same, rlBit_place_same, aqBit_place_disjoint, rlBit_place_disjoint]
    simp [field, aqBit, rlBit]

theorem Encoding.amomaxuD (aq rl : Bool) (rd rs1 rs2 : XReg) : Encoding.Statement (.amomaxuD aq rl rd rs1 rs2) := by
  intro x h
  obtain rfl : x = .rv64 := eq_rv64_of_rowOf64 h
  refine encoding_of_row 10 (encAmo2 0xE000302F aq rl rd.num rs1.num rs2.num) mem_rowsRV64A rfl rfl ?_ ?_
  · simp (disch := decide) [Row.accepts, only64, encAmo2, placeBit, mask_drop]
  · simp (disch := decide) [encAmo2, placeBit, rdField, rs1Field, rs2Field, field_or, field_place_same, field_place_disjoint,
      aqBit_or, rlBit_or, aqBit_place_same, rlBit_place_same, aqBit_place_disjoint, rlBit_place_disjoint]
    simp [field, aqBit, rlBit]

theorem Encoding.flw (rd : FReg) (rs1 : XReg) (imm : BitVec 12) : Encoding.Statement (.flw rd rs1 imm) := by
  intro x h
  refine encoding_of_row 0 (encI 0x00002007 rd.num rs1.num imm) mem_rowsRV32F rfl rfl ?_ ?_
  · cases x <;> simp (disch := decide) [Row.accepts, both, encI, mask_drop]
  · simp (disch := decide) [encI, immI, rdField, rs1Field, field_or, field_place_same, field_place_disjoint]
    simp [field]

theorem Encoding.fsw (rs1 : XReg) (rs2 : FReg) (imm : BitVec 12) : Encoding.Statement (.fsw rs1 rs2 imm) := by
  intro x h
  refine encoding_of_row 1 (encS 0x00002027 rs1.num rs2.num imm) mem_rowsRV32F rfl rfl ?_ ?_
  · cases x <;> simp (disch := decide) [Row.accepts, both, encS, mask_drop]
  · simp (disch := decide) [encS, immS, rs1Field, rs2Field, field_or, field_place_same, field_place_disjoint]
    simp [field, immS_pieces]

theorem Encoding.fmaddS (rm : BitVec 3) (rd rs1 rs2 rs3 : FReg) : Encoding.Statement (.fmaddS rm rd rs1 rs2 rs3) := by
  intro x h
  refine encoding_of_row 2 (encR4 0x00000043 rm rd.num rs1.num rs2.num rs3.num) mem_rowsRV32F rfl rfl ?_ ?_
  · cases x <;> simp (disch := decide) [Row.accepts, both, encR4, mask_drop]
  · simp (disch := decide) [encR4, rdField, rmField, rs1Field, rs2Field, rs3Field, field_or, field_place_same, field_place_disjoint]
    simp [field]

theorem Encoding.fmsubS (rm : BitVec 3) (rd rs1 rs2 rs3 : FReg) : Encoding.Statement (.fmsubS rm rd rs1 rs2 rs3) := by
  intro x h
  refine encoding_of_row 3 (encR4 0x00000047 rm rd.num rs1.num rs2.num rs3.num) mem_rowsRV32F rfl rfl ?_ ?_
  · cases x <;> simp (disch := decide) [Row.accepts, both, encR4, mask_drop]
  · simp (disch := decide) [encR4, rdField, rmField, rs1Field, rs2Field, rs3Field, field_or, field_place_same, field_place_disjoint]
    simp [field]

theorem Encoding.fnmsubS (rm : BitVec 3) (rd rs1 rs2 rs3 : FReg)
    : Encoding.Statement (.fnmsubS rm rd rs1 rs2 rs3) := by
  intro x h
  refine encoding_of_row 4 (encR4 0x0000004B rm rd.num rs1.num rs2.num rs3.num) mem_rowsRV32F rfl rfl ?_ ?_
  · cases x <;> simp (disch := decide) [Row.accepts, both, encR4, mask_drop]
  · simp (disch := decide) [encR4, rdField, rmField, rs1Field, rs2Field, rs3Field, field_or, field_place_same, field_place_disjoint]
    simp [field]

theorem Encoding.fnmaddS (rm : BitVec 3) (rd rs1 rs2 rs3 : FReg)
    : Encoding.Statement (.fnmaddS rm rd rs1 rs2 rs3) := by
  intro x h
  refine encoding_of_row 5 (encR4 0x0000004F rm rd.num rs1.num rs2.num rs3.num) mem_rowsRV32F rfl rfl ?_ ?_
  · cases x <;> simp (disch := decide) [Row.accepts, both, encR4, mask_drop]
  · simp (disch := decide) [encR4, rdField, rmField, rs1Field, rs2Field, rs3Field, field_or, field_place_same, field_place_disjoint]
    simp [field]

theorem Encoding.faddS (rm : BitVec 3) (rd rs1 rs2 : FReg) : Encoding.Statement (.faddS rm rd rs1 rs2) := by
  intro x h
  refine encoding_of_row 6 (encRm2 0x00000053 rm rd.num rs1.num rs2.num) mem_rowsRV32F rfl rfl ?_ ?_
  · cases x <;> simp (disch := decide) [Row.accepts, both, encRm2, mask_drop]
  · simp (disch := decide) [encRm2, rdField, rmField, rs1Field, rs2Field, field_or, field_place_same, field_place_disjoint]
    simp [field]

theorem Encoding.fsubS (rm : BitVec 3) (rd rs1 rs2 : FReg) : Encoding.Statement (.fsubS rm rd rs1 rs2) := by
  intro x h
  refine encoding_of_row 7 (encRm2 0x08000053 rm rd.num rs1.num rs2.num) mem_rowsRV32F rfl rfl ?_ ?_
  · cases x <;> simp (disch := decide) [Row.accepts, both, encRm2, mask_drop]
  · simp (disch := decide) [encRm2, rdField, rmField, rs1Field, rs2Field, field_or, field_place_same, field_place_disjoint]
    simp [field]

theorem Encoding.fmulS (rm : BitVec 3) (rd rs1 rs2 : FReg) : Encoding.Statement (.fmulS rm rd rs1 rs2) := by
  intro x h
  refine encoding_of_row 8 (encRm2 0x10000053 rm rd.num rs1.num rs2.num) mem_rowsRV32F rfl rfl ?_ ?_
  · cases x <;> simp (disch := decide) [Row.accepts, both, encRm2, mask_drop]
  · simp (disch := decide) [encRm2, rdField, rmField, rs1Field, rs2Field, field_or, field_place_same, field_place_disjoint]
    simp [field]

theorem Encoding.fdivS (rm : BitVec 3) (rd rs1 rs2 : FReg) : Encoding.Statement (.fdivS rm rd rs1 rs2) := by
  intro x h
  refine encoding_of_row 9 (encRm2 0x18000053 rm rd.num rs1.num rs2.num) mem_rowsRV32F rfl rfl ?_ ?_
  · cases x <;> simp (disch := decide) [Row.accepts, both, encRm2, mask_drop]
  · simp (disch := decide) [encRm2, rdField, rmField, rs1Field, rs2Field, field_or, field_place_same, field_place_disjoint]
    simp [field]

theorem Encoding.fsgnjS (rd rs1 rs2 : FReg) : Encoding.Statement (.fsgnjS rd rs1 rs2) := by
  intro x h
  refine encoding_of_row 10 (encR 0x20000053 rd.num rs1.num rs2.num) mem_rowsRV32F rfl rfl ?_ ?_
  · cases x <;> simp (disch := decide) [Row.accepts, both, encR, mask_drop]
  · simp (disch := decide) [encR, rdField, rs1Field, rs2Field, field_or, field_place_same, field_place_disjoint]
    simp [field]

theorem Encoding.fsgnjnS (rd rs1 rs2 : FReg) : Encoding.Statement (.fsgnjnS rd rs1 rs2) := by
  intro x h
  refine encoding_of_row 11 (encR 0x20001053 rd.num rs1.num rs2.num) mem_rowsRV32F rfl rfl ?_ ?_
  · cases x <;> simp (disch := decide) [Row.accepts, both, encR, mask_drop]
  · simp (disch := decide) [encR, rdField, rs1Field, rs2Field, field_or, field_place_same, field_place_disjoint]
    simp [field]

theorem Encoding.fsgnjxS (rd rs1 rs2 : FReg) : Encoding.Statement (.fsgnjxS rd rs1 rs2) := by
  intro x h
  refine encoding_of_row 12 (encR 0x20002053 rd.num rs1.num rs2.num) mem_rowsRV32F rfl rfl ?_ ?_
  · cases x <;> simp (disch := decide) [Row.accepts, both, encR, mask_drop]
  · simp (disch := decide) [encR, rdField, rs1Field, rs2Field, field_or, field_place_same, field_place_disjoint]
    simp [field]

theorem Encoding.fminS (rd rs1 rs2 : FReg) : Encoding.Statement (.fminS rd rs1 rs2) := by
  intro x h
  refine encoding_of_row 13 (encR 0x28000053 rd.num rs1.num rs2.num) mem_rowsRV32F rfl rfl ?_ ?_
  · cases x <;> simp (disch := decide) [Row.accepts, both, encR, mask_drop]
  · simp (disch := decide) [encR, rdField, rs1Field, rs2Field, field_or, field_place_same, field_place_disjoint]
    simp [field]

theorem Encoding.fmaxS (rd rs1 rs2 : FReg) : Encoding.Statement (.fmaxS rd rs1 rs2) := by
  intro x h
  refine encoding_of_row 14 (encR 0x28001053 rd.num rs1.num rs2.num) mem_rowsRV32F rfl rfl ?_ ?_
  · cases x <;> simp (disch := decide) [Row.accepts, both, encR, mask_drop]
  · simp (disch := decide) [encR, rdField, rs1Field, rs2Field, field_or, field_place_same, field_place_disjoint]
    simp [field]

theorem Encoding.fsqrtS (rm : BitVec 3) (rd rs1 : FReg) : Encoding.Statement (.fsqrtS rm rd rs1) := by
  intro x h
  refine encoding_of_row 15 (encRm1 0x58000053 rm rd.num rs1.num) mem_rowsRV32F rfl rfl ?_ ?_
  · cases x <;> simp (disch := decide) [Row.accepts, both, encRm1, mask_drop]
  · simp (disch := decide) [encRm1, rdField, rmField, rs1Field, field_or, field_place_same, field_place_disjoint]
    simp [field]

theorem Encoding.fleS (rd : XReg) (rs1 rs2 : FReg) : Encoding.Statement (.fleS rd rs1 rs2) := by
  intro x h
  refine encoding_of_row 16 (encR 0xA0000053 rd.num rs1.num rs2.num) mem_rowsRV32F rfl rfl ?_ ?_
  · cases x <;> simp (disch := decide) [Row.accepts, both, encR, mask_drop]
  · simp (disch := decide) [encR, rdField, rs1Field, rs2Field, field_or, field_place_same, field_place_disjoint]
    simp [field]

theorem Encoding.fltS (rd : XReg) (rs1 rs2 : FReg) : Encoding.Statement (.fltS rd rs1 rs2) := by
  intro x h
  refine encoding_of_row 17 (encR 0xA0001053 rd.num rs1.num rs2.num) mem_rowsRV32F rfl rfl ?_ ?_
  · cases x <;> simp (disch := decide) [Row.accepts, both, encR, mask_drop]
  · simp (disch := decide) [encR, rdField, rs1Field, rs2Field, field_or, field_place_same, field_place_disjoint]
    simp [field]

theorem Encoding.feqS (rd : XReg) (rs1 rs2 : FReg) : Encoding.Statement (.feqS rd rs1 rs2) := by
  intro x h
  refine encoding_of_row 18 (encR 0xA0002053 rd.num rs1.num rs2.num) mem_rowsRV32F rfl rfl ?_ ?_
  · cases x <;> simp (disch := decide) [Row.accepts, both, encR, mask_drop]
  · simp (disch := decide) [encR, rdField, rs1Field, rs2Field, field_or, field_place_same, field_place_disjoint]
    simp [field]

theorem Encoding.fcvtWS (rm : BitVec 3) (rd : XReg) (rs1 : FReg) : Encoding.Statement (.fcvtWS rm rd rs1) := by
  intro x h
  refine encoding_of_row 19 (encRm1 0xC0000053 rm rd.num rs1.num) mem_rowsRV32F rfl rfl ?_ ?_
  · cases x <;> simp (disch := decide) [Row.accepts, both, encRm1, mask_drop]
  · simp (disch := decide) [encRm1, rdField, rmField, rs1Field, field_or, field_place_same, field_place_disjoint]
    simp [field]

theorem Encoding.fcvtWuS (rm : BitVec 3) (rd : XReg) (rs1 : FReg) : Encoding.Statement (.fcvtWuS rm rd rs1) := by
  intro x h
  refine encoding_of_row 20 (encRm1 0xC0100053 rm rd.num rs1.num) mem_rowsRV32F rfl rfl ?_ ?_
  · cases x <;> simp (disch := decide) [Row.accepts, both, encRm1, mask_drop]
  · simp (disch := decide) [encRm1, rdField, rmField, rs1Field, field_or, field_place_same, field_place_disjoint]
    simp [field]

theorem Encoding.fcvtSW (rm : BitVec 3) (rd : FReg) (rs1 : XReg) : Encoding.Statement (.fcvtSW rm rd rs1) := by
  intro x h
  refine encoding_of_row 21 (encRm1 0xD0000053 rm rd.num rs1.num) mem_rowsRV32F rfl rfl ?_ ?_
  · cases x <;> simp (disch := decide) [Row.accepts, both, encRm1, mask_drop]
  · simp (disch := decide) [encRm1, rdField, rmField, rs1Field, field_or, field_place_same, field_place_disjoint]
    simp [field]

theorem Encoding.fcvtSWu (rm : BitVec 3) (rd : FReg) (rs1 : XReg) : Encoding.Statement (.fcvtSWu rm rd rs1) := by
  intro x h
  refine encoding_of_row 22 (encRm1 0xD0100053 rm rd.num rs1.num) mem_rowsRV32F rfl rfl ?_ ?_
  · cases x <;> simp (disch := decide) [Row.accepts, both, encRm1, mask_drop]
  · simp (disch := decide) [encRm1, rdField, rmField, rs1Field, field_or, field_place_same, field_place_disjoint]
    simp [field]

theorem Encoding.fmvXS (rd : XReg) (rs1 : FReg) : Encoding.Statement (.fmvXS rd rs1) := by
  intro x h
  refine encoding_of_row 23 (encR1 0xE0000053 rd.num rs1.num) mem_rowsRV32F rfl rfl ?_ ?_
  · cases x <;> simp (disch := decide) [Row.accepts, both, encR1, mask_drop]
  · simp (disch := decide) [encR1, rdField, rs1Field, field_or, field_place_same, field_place_disjoint]
    simp [field]

theorem Encoding.fclassS (rd : XReg) (rs1 : FReg) : Encoding.Statement (.fclassS rd rs1) := by
  intro x h
  refine encoding_of_row 24 (encR1 0xE0001053 rd.num rs1.num) mem_rowsRV32F rfl rfl ?_ ?_
  · cases x <;> simp (disch := decide) [Row.accepts, both, encR1, mask_drop]
  · simp (disch := decide) [encR1, rdField, rs1Field, field_or, field_place_same, field_place_disjoint]
    simp [field]

theorem Encoding.fmvSX (rd : FReg) (rs1 : XReg) : Encoding.Statement (.fmvSX rd rs1) := by
  intro x h
  refine encoding_of_row 25 (encR1 0xF0000053 rd.num rs1.num) mem_rowsRV32F rfl rfl ?_ ?_
  · cases x <;> simp (disch := decide) [Row.accepts, both, encR1, mask_drop]
  · simp (disch := decide) [encR1, rdField, rs1Field, field_or, field_place_same, field_place_disjoint]
    simp [field]

theorem Encoding.frcsr (rd : XReg) : Encoding.Statement (.frcsr rd) := by
  intro x h
  refine encoding_of_row 26 (encRd 0x00302073 rd.num) mem_rowsRV32F rfl rfl ?_ ?_
  · cases x <;> simp (disch := decide) [Row.accepts, both, encRd, mask_drop]
  · simp (disch := decide) [encRd, rdField, field_or, field_place_same]
    simp [field]

theorem Encoding.frrm (rd : XReg) : Encoding.Statement (.frrm rd) := by
  intro x h
  refine encoding_of_row 27 (encRd 0x00202073 rd.num) mem_rowsRV32F rfl rfl ?_ ?_
  · cases x <;> simp (disch := decide) [Row.accepts, both, encRd, mask_drop]
  · simp (disch := decide) [encRd, rdField, field_or, field_place_same]
    simp [field]

theorem Encoding.frflags (rd : XReg) : Encoding.Statement (.frflags rd) := by
  intro x h
  refine encoding_of_row 28 (encRd 0x00102073 rd.num) mem_rowsRV32F rfl rfl ?_ ?_
  · cases x <;> simp (disch := decide) [Row.accepts, both, encRd, mask_drop]
  · simp (disch := decide) [encRd, rdField, field_or, field_place_same]
    simp [field]

theorem Encoding.fscsr (rd rs1 : XReg) : Encoding.Statement (.fscsr rd rs1) := by
  intro x h
  refine encoding_of_row 29 (encR1 0x00301073 rd.num rs1.num) mem_rowsRV32F rfl rfl ?_ ?_
  · cases x <;> simp (disch := decide) [Row.accepts, both, encR1, mask_drop]
  · simp (disch := decide) [encR1, rdField, rs1Field, field_or, field_place_same, field_place_disjoint]
    simp [field]

theorem Encoding.fsrm (rd rs1 : XReg) : Encoding.Statement (.fsrm rd rs1) := by
  intro x h
  refine encoding_of_row 30 (encR1 0x00201073 rd.num rs1.num) mem_rowsRV32F rfl rfl ?_ ?_
  · cases x <;> simp (disch := decide) [Row.accepts, both, encR1, mask_drop]
  · simp (disch := decide) [encR1, rdField, rs1Field, field_or, field_place_same, field_place_disjoint]
    simp [field]

theorem Encoding.fsflags (rd rs1 : XReg) : Encoding.Statement (.fsflags rd rs1) := by
  intro x h
  refine encoding_of_row 31 (encR1 0x00101073 rd.num rs1.num) mem_rowsRV32F rfl rfl ?_ ?_
  · cases x <;> simp (disch := decide) [Row.accepts, both, encR1, mask_drop]
  · simp (disch := decide) [encR1, rdField, rs1Field, field_or, field_place_same, field_place_disjoint]
    simp [field]

theorem Encoding.fsrmi (rd : XReg) (uimm : BitVec 5) : Encoding.Statement (.fsrmi rd uimm) := by
  intro x h
  refine encoding_of_row 32 (encR1 0x00205073 rd.num uimm) mem_rowsRV32F rfl rfl ?_ ?_
  · cases x <;> simp (disch := decide) [Row.accepts, both, encR1, mask_drop]
  · simp (disch := decide) [encR1, rdField, uimmField, field_or, field_place_same, field_place_disjoint]
    simp [field]

theorem Encoding.fsflagsi (rd : XReg) (uimm : BitVec 5) : Encoding.Statement (.fsflagsi rd uimm) := by
  intro x h
  refine encoding_of_row 33 (encR1 0x00105073 rd.num uimm) mem_rowsRV32F rfl rfl ?_ ?_
  · cases x <;> simp (disch := decide) [Row.accepts, both, encR1, mask_drop]
  · simp (disch := decide) [encR1, rdField, uimmField, field_or, field_place_same, field_place_disjoint]
    simp [field]

theorem Encoding.fcvtLS (rm : BitVec 3) (rd : XReg) (rs1 : FReg) : Encoding.Statement (.fcvtLS rm rd rs1) := by
  intro x h
  obtain rfl : x = .rv64 := eq_rv64_of_rowOf64 h
  refine encoding_of_row 0 (encRm1 0xC0200053 rm rd.num rs1.num) mem_rowsRV64F rfl rfl ?_ ?_
  · simp (disch := decide) [Row.accepts, only64, encRm1, mask_drop]
  · simp (disch := decide) [encRm1, rdField, rmField, rs1Field, field_or, field_place_same, field_place_disjoint]
    simp [field]

theorem Encoding.fcvtLuS (rm : BitVec 3) (rd : XReg) (rs1 : FReg) : Encoding.Statement (.fcvtLuS rm rd rs1) := by
  intro x h
  obtain rfl : x = .rv64 := eq_rv64_of_rowOf64 h
  refine encoding_of_row 1 (encRm1 0xC0300053 rm rd.num rs1.num) mem_rowsRV64F rfl rfl ?_ ?_
  · simp (disch := decide) [Row.accepts, only64, encRm1, mask_drop]
  · simp (disch := decide) [encRm1, rdField, rmField, rs1Field, field_or, field_place_same, field_place_disjoint]
    simp [field]

theorem Encoding.fcvtSL (rm : BitVec 3) (rd : FReg) (rs1 : XReg) : Encoding.Statement (.fcvtSL rm rd rs1) := by
  intro x h
  obtain rfl : x = .rv64 := eq_rv64_of_rowOf64 h
  refine encoding_of_row 2 (encRm1 0xD0200053 rm rd.num rs1.num) mem_rowsRV64F rfl rfl ?_ ?_
  · simp (disch := decide) [Row.accepts, only64, encRm1, mask_drop]
  · simp (disch := decide) [encRm1, rdField, rmField, rs1Field, field_or, field_place_same, field_place_disjoint]
    simp [field]

theorem Encoding.fcvtSLu (rm : BitVec 3) (rd : FReg) (rs1 : XReg) : Encoding.Statement (.fcvtSLu rm rd rs1) := by
  intro x h
  obtain rfl : x = .rv64 := eq_rv64_of_rowOf64 h
  refine encoding_of_row 3 (encRm1 0xD0300053 rm rd.num rs1.num) mem_rowsRV64F rfl rfl ?_ ?_
  · simp (disch := decide) [Row.accepts, only64, encRm1, mask_drop]
  · simp (disch := decide) [encRm1, rdField, rmField, rs1Field, field_or, field_place_same, field_place_disjoint]
    simp [field]

theorem Encoding.fld (rd : FReg) (rs1 : XReg) (imm : BitVec 12) : Encoding.Statement (.fld rd rs1 imm) := by
  intro x h
  refine encoding_of_row 0 (encI 0x00003007 rd.num rs1.num imm) mem_rowsRV32D rfl rfl ?_ ?_
  · cases x <;> simp (disch := decide) [Row.accepts, both, encI, mask_drop]
  · simp (disch := decide) [encI, immI, rdField, rs1Field, field_or, field_place_same, field_place_disjoint]
    simp [field]

theorem Encoding.fsd (rs1 : XReg) (rs2 : FReg) (imm : BitVec 12) : Encoding.Statement (.fsd rs1 rs2 imm) := by
  intro x h
  refine encoding_of_row 1 (encS 0x00003027 rs1.num rs2.num imm) mem_rowsRV32D rfl rfl ?_ ?_
  · cases x <;> simp (disch := decide) [Row.accepts, both, encS, mask_drop]
  · simp (disch := decide) [encS, immS, rs1Field, rs2Field, field_or, field_place_same, field_place_disjoint]
    simp [field, immS_pieces]

theorem Encoding.fmaddD (rm : BitVec 3) (rd rs1 rs2 rs3 : FReg) : Encoding.Statement (.fmaddD rm rd rs1 rs2 rs3) := by
  intro x h
  refine encoding_of_row 2 (encR4 0x02000043 rm rd.num rs1.num rs2.num rs3.num) mem_rowsRV32D rfl rfl ?_ ?_
  · cases x <;> simp (disch := decide) [Row.accepts, both, encR4, mask_drop]
  · simp (disch := decide) [encR4, rdField, rmField, rs1Field, rs2Field, rs3Field, field_or, field_place_same, field_place_disjoint]
    simp [field]

theorem Encoding.fmsubD (rm : BitVec 3) (rd rs1 rs2 rs3 : FReg) : Encoding.Statement (.fmsubD rm rd rs1 rs2 rs3) := by
  intro x h
  refine encoding_of_row 3 (encR4 0x02000047 rm rd.num rs1.num rs2.num rs3.num) mem_rowsRV32D rfl rfl ?_ ?_
  · cases x <;> simp (disch := decide) [Row.accepts, both, encR4, mask_drop]
  · simp (disch := decide) [encR4, rdField, rmField, rs1Field, rs2Field, rs3Field, field_or, field_place_same, field_place_disjoint]
    simp [field]

theorem Encoding.fnmsubD (rm : BitVec 3) (rd rs1 rs2 rs3 : FReg)
    : Encoding.Statement (.fnmsubD rm rd rs1 rs2 rs3) := by
  intro x h
  refine encoding_of_row 4 (encR4 0x0200004B rm rd.num rs1.num rs2.num rs3.num) mem_rowsRV32D rfl rfl ?_ ?_
  · cases x <;> simp (disch := decide) [Row.accepts, both, encR4, mask_drop]
  · simp (disch := decide) [encR4, rdField, rmField, rs1Field, rs2Field, rs3Field, field_or, field_place_same, field_place_disjoint]
    simp [field]

theorem Encoding.fnmaddD (rm : BitVec 3) (rd rs1 rs2 rs3 : FReg)
    : Encoding.Statement (.fnmaddD rm rd rs1 rs2 rs3) := by
  intro x h
  refine encoding_of_row 5 (encR4 0x0200004F rm rd.num rs1.num rs2.num rs3.num) mem_rowsRV32D rfl rfl ?_ ?_
  · cases x <;> simp (disch := decide) [Row.accepts, both, encR4, mask_drop]
  · simp (disch := decide) [encR4, rdField, rmField, rs1Field, rs2Field, rs3Field, field_or, field_place_same, field_place_disjoint]
    simp [field]

theorem Encoding.faddD (rm : BitVec 3) (rd rs1 rs2 : FReg) : Encoding.Statement (.faddD rm rd rs1 rs2) := by
  intro x h
  refine encoding_of_row 6 (encRm2 0x02000053 rm rd.num rs1.num rs2.num) mem_rowsRV32D rfl rfl ?_ ?_
  · cases x <;> simp (disch := decide) [Row.accepts, both, encRm2, mask_drop]
  · simp (disch := decide) [encRm2, rdField, rmField, rs1Field, rs2Field, field_or, field_place_same, field_place_disjoint]
    simp [field]

theorem Encoding.fsubD (rm : BitVec 3) (rd rs1 rs2 : FReg) : Encoding.Statement (.fsubD rm rd rs1 rs2) := by
  intro x h
  refine encoding_of_row 7 (encRm2 0x0A000053 rm rd.num rs1.num rs2.num) mem_rowsRV32D rfl rfl ?_ ?_
  · cases x <;> simp (disch := decide) [Row.accepts, both, encRm2, mask_drop]
  · simp (disch := decide) [encRm2, rdField, rmField, rs1Field, rs2Field, field_or, field_place_same, field_place_disjoint]
    simp [field]

theorem Encoding.fmulD (rm : BitVec 3) (rd rs1 rs2 : FReg) : Encoding.Statement (.fmulD rm rd rs1 rs2) := by
  intro x h
  refine encoding_of_row 8 (encRm2 0x12000053 rm rd.num rs1.num rs2.num) mem_rowsRV32D rfl rfl ?_ ?_
  · cases x <;> simp (disch := decide) [Row.accepts, both, encRm2, mask_drop]
  · simp (disch := decide) [encRm2, rdField, rmField, rs1Field, rs2Field, field_or, field_place_same, field_place_disjoint]
    simp [field]

theorem Encoding.fdivD (rm : BitVec 3) (rd rs1 rs2 : FReg) : Encoding.Statement (.fdivD rm rd rs1 rs2) := by
  intro x h
  refine encoding_of_row 9 (encRm2 0x1A000053 rm rd.num rs1.num rs2.num) mem_rowsRV32D rfl rfl ?_ ?_
  · cases x <;> simp (disch := decide) [Row.accepts, both, encRm2, mask_drop]
  · simp (disch := decide) [encRm2, rdField, rmField, rs1Field, rs2Field, field_or, field_place_same, field_place_disjoint]
    simp [field]

theorem Encoding.fsgnjD (rd rs1 rs2 : FReg) : Encoding.Statement (.fsgnjD rd rs1 rs2) := by
  intro x h
  refine encoding_of_row 10 (encR 0x22000053 rd.num rs1.num rs2.num) mem_rowsRV32D rfl rfl ?_ ?_
  · cases x <;> simp (disch := decide) [Row.accepts, both, encR, mask_drop]
  · simp (disch := decide) [encR, rdField, rs1Field, rs2Field, field_or, field_place_same, field_place_disjoint]
    simp [field]

theorem Encoding.fsgnjnD (rd rs1 rs2 : FReg) : Encoding.Statement (.fsgnjnD rd rs1 rs2) := by
  intro x h
  refine encoding_of_row 11 (encR 0x22001053 rd.num rs1.num rs2.num) mem_rowsRV32D rfl rfl ?_ ?_
  · cases x <;> simp (disch := decide) [Row.accepts, both, encR, mask_drop]
  · simp (disch := decide) [encR, rdField, rs1Field, rs2Field, field_or, field_place_same, field_place_disjoint]
    simp [field]

theorem Encoding.fsgnjxD (rd rs1 rs2 : FReg) : Encoding.Statement (.fsgnjxD rd rs1 rs2) := by
  intro x h
  refine encoding_of_row 12 (encR 0x22002053 rd.num rs1.num rs2.num) mem_rowsRV32D rfl rfl ?_ ?_
  · cases x <;> simp (disch := decide) [Row.accepts, both, encR, mask_drop]
  · simp (disch := decide) [encR, rdField, rs1Field, rs2Field, field_or, field_place_same, field_place_disjoint]
    simp [field]

theorem Encoding.fminD (rd rs1 rs2 : FReg) : Encoding.Statement (.fminD rd rs1 rs2) := by
  intro x h
  refine encoding_of_row 13 (encR 0x2A000053 rd.num rs1.num rs2.num) mem_rowsRV32D rfl rfl ?_ ?_
  · cases x <;> simp (disch := decide) [Row.accepts, both, encR, mask_drop]
  · simp (disch := decide) [encR, rdField, rs1Field, rs2Field, field_or, field_place_same, field_place_disjoint]
    simp [field]

theorem Encoding.fmaxD (rd rs1 rs2 : FReg) : Encoding.Statement (.fmaxD rd rs1 rs2) := by
  intro x h
  refine encoding_of_row 14 (encR 0x2A001053 rd.num rs1.num rs2.num) mem_rowsRV32D rfl rfl ?_ ?_
  · cases x <;> simp (disch := decide) [Row.accepts, both, encR, mask_drop]
  · simp (disch := decide) [encR, rdField, rs1Field, rs2Field, field_or, field_place_same, field_place_disjoint]
    simp [field]

theorem Encoding.fsqrtD (rm : BitVec 3) (rd rs1 : FReg) : Encoding.Statement (.fsqrtD rm rd rs1) := by
  intro x h
  refine encoding_of_row 15 (encRm1 0x5A000053 rm rd.num rs1.num) mem_rowsRV32D rfl rfl ?_ ?_
  · cases x <;> simp (disch := decide) [Row.accepts, both, encRm1, mask_drop]
  · simp (disch := decide) [encRm1, rdField, rmField, rs1Field, field_or, field_place_same, field_place_disjoint]
    simp [field]

theorem Encoding.fleD (rd : XReg) (rs1 rs2 : FReg) : Encoding.Statement (.fleD rd rs1 rs2) := by
  intro x h
  refine encoding_of_row 16 (encR 0xA2000053 rd.num rs1.num rs2.num) mem_rowsRV32D rfl rfl ?_ ?_
  · cases x <;> simp (disch := decide) [Row.accepts, both, encR, mask_drop]
  · simp (disch := decide) [encR, rdField, rs1Field, rs2Field, field_or, field_place_same, field_place_disjoint]
    simp [field]

theorem Encoding.fltD (rd : XReg) (rs1 rs2 : FReg) : Encoding.Statement (.fltD rd rs1 rs2) := by
  intro x h
  refine encoding_of_row 17 (encR 0xA2001053 rd.num rs1.num rs2.num) mem_rowsRV32D rfl rfl ?_ ?_
  · cases x <;> simp (disch := decide) [Row.accepts, both, encR, mask_drop]
  · simp (disch := decide) [encR, rdField, rs1Field, rs2Field, field_or, field_place_same, field_place_disjoint]
    simp [field]

theorem Encoding.feqD (rd : XReg) (rs1 rs2 : FReg) : Encoding.Statement (.feqD rd rs1 rs2) := by
  intro x h
  refine encoding_of_row 18 (encR 0xA2002053 rd.num rs1.num rs2.num) mem_rowsRV32D rfl rfl ?_ ?_
  · cases x <;> simp (disch := decide) [Row.accepts, both, encR, mask_drop]
  · simp (disch := decide) [encR, rdField, rs1Field, rs2Field, field_or, field_place_same, field_place_disjoint]
    simp [field]

theorem Encoding.fcvtWD (rm : BitVec 3) (rd : XReg) (rs1 : FReg) : Encoding.Statement (.fcvtWD rm rd rs1) := by
  intro x h
  refine encoding_of_row 19 (encRm1 0xC2000053 rm rd.num rs1.num) mem_rowsRV32D rfl rfl ?_ ?_
  · cases x <;> simp (disch := decide) [Row.accepts, both, encRm1, mask_drop]
  · simp (disch := decide) [encRm1, rdField, rmField, rs1Field, field_or, field_place_same, field_place_disjoint]
    simp [field]

theorem Encoding.fcvtWuD (rm : BitVec 3) (rd : XReg) (rs1 : FReg) : Encoding.Statement (.fcvtWuD rm rd rs1) := by
  intro x h
  refine encoding_of_row 20 (encRm1 0xC2100053 rm rd.num rs1.num) mem_rowsRV32D rfl rfl ?_ ?_
  · cases x <;> simp (disch := decide) [Row.accepts, both, encRm1, mask_drop]
  · simp (disch := decide) [encRm1, rdField, rmField, rs1Field, field_or, field_place_same, field_place_disjoint]
    simp [field]

theorem Encoding.fcvtDW (rm : BitVec 3) (rd : FReg) (rs1 : XReg) : Encoding.Statement (.fcvtDW rm rd rs1) := by
  intro x h
  refine encoding_of_row 21 (encRm1 0xD2000053 rm rd.num rs1.num) mem_rowsRV32D rfl rfl ?_ ?_
  · cases x <;> simp (disch := decide) [Row.accepts, both, encRm1, mask_drop]
  · simp (disch := decide) [encRm1, rdField, rmField, rs1Field, field_or, field_place_same, field_place_disjoint]
    simp [field]

theorem Encoding.fcvtDWu (rm : BitVec 3) (rd : FReg) (rs1 : XReg) : Encoding.Statement (.fcvtDWu rm rd rs1) := by
  intro x h
  refine encoding_of_row 22 (encRm1 0xD2100053 rm rd.num rs1.num) mem_rowsRV32D rfl rfl ?_ ?_
  · cases x <;> simp (disch := decide) [Row.accepts, both, encRm1, mask_drop]
  · simp (disch := decide) [encRm1, rdField, rmField, rs1Field, field_or, field_place_same, field_place_disjoint]
    simp [field]

theorem Encoding.fclassD (rd : XReg) (rs1 : FReg) : Encoding.Statement (.fclassD rd rs1) := by
  intro x h
  refine encoding_of_row 23 (encR1 0xE2001053 rd.num rs1.num) mem_rowsRV32D rfl rfl ?_ ?_
  · cases x <;> simp (disch := decide) [Row.accepts, both, encR1, mask_drop]
  · simp (disch := decide) [encR1, rdField, rs1Field, field_or, field_place_same, field_place_disjoint]
    simp [field]

theorem Encoding.fcvtLD (rm : BitVec 3) (rd : XReg) (rs1 : FReg) : Encoding.Statement (.fcvtLD rm rd rs1) := by
  intro x h
  obtain rfl : x = .rv64 := eq_rv64_of_rowOf64 h
  refine encoding_of_row 0 (encRm1 0xC2200053 rm rd.num rs1.num) mem_rowsRV64D rfl rfl ?_ ?_
  · simp (disch := decide) [Row.accepts, only64, encRm1, mask_drop]
  · simp (disch := decide) [encRm1, rdField, rmField, rs1Field, field_or, field_place_same, field_place_disjoint]
    simp [field]

theorem Encoding.fcvtLuD (rm : BitVec 3) (rd : XReg) (rs1 : FReg) : Encoding.Statement (.fcvtLuD rm rd rs1) := by
  intro x h
  obtain rfl : x = .rv64 := eq_rv64_of_rowOf64 h
  refine encoding_of_row 1 (encRm1 0xC2300053 rm rd.num rs1.num) mem_rowsRV64D rfl rfl ?_ ?_
  · simp (disch := decide) [Row.accepts, only64, encRm1, mask_drop]
  · simp (disch := decide) [encRm1, rdField, rmField, rs1Field, field_or, field_place_same, field_place_disjoint]
    simp [field]

theorem Encoding.fcvtDL (rm : BitVec 3) (rd : FReg) (rs1 : XReg) : Encoding.Statement (.fcvtDL rm rd rs1) := by
  intro x h
  obtain rfl : x = .rv64 := eq_rv64_of_rowOf64 h
  refine encoding_of_row 2 (encRm1 0xD2200053 rm rd.num rs1.num) mem_rowsRV64D rfl rfl ?_ ?_
  · simp (disch := decide) [Row.accepts, only64, encRm1, mask_drop]
  · simp (disch := decide) [encRm1, rdField, rmField, rs1Field, field_or, field_place_same, field_place_disjoint]
    simp [field]

theorem Encoding.fcvtDLu (rm : BitVec 3) (rd : FReg) (rs1 : XReg) : Encoding.Statement (.fcvtDLu rm rd rs1) := by
  intro x h
  obtain rfl : x = .rv64 := eq_rv64_of_rowOf64 h
  refine encoding_of_row 3 (encRm1 0xD2300053 rm rd.num rs1.num) mem_rowsRV64D rfl rfl ?_ ?_
  · simp (disch := decide) [Row.accepts, only64, encRm1, mask_drop]
  · simp (disch := decide) [encRm1, rdField, rmField, rs1Field, field_or, field_place_same, field_place_disjoint]
    simp [field]

theorem Encoding.fmvXD (rd : XReg) (rs1 : FReg) : Encoding.Statement (.fmvXD rd rs1) := by
  intro x h
  obtain rfl : x = .rv64 := eq_rv64_of_rowOf64 h
  refine encoding_of_row 4 (encR1 0xE2000053 rd.num rs1.num) mem_rowsRV64D rfl rfl ?_ ?_
  · simp (disch := decide) [Row.accepts, only64, encR1, mask_drop]
  · simp (disch := decide) [encR1, rdField, rs1Field, field_or, field_place_same, field_place_disjoint]
    simp [field]

theorem Encoding.fmvDX (rd : FReg) (rs1 : XReg) : Encoding.Statement (.fmvDX rd rs1) := by
  intro x h
  obtain rfl : x = .rv64 := eq_rv64_of_rowOf64 h
  refine encoding_of_row 5 (encR1 0xF2000053 rd.num rs1.num) mem_rowsRV64D rfl rfl ?_ ?_
  · simp (disch := decide) [Row.accepts, only64, encR1, mask_drop]
  · simp (disch := decide) [encR1, rdField, rs1Field, field_or, field_place_same, field_place_disjoint]
    simp [field]

end Sys2Proof.Laws
end

