-- ==== Sys2Proof/Laws/RetryLoop.lean ====
section
/-! SUPPORT. What the record of an LR/SC loop can become at each instruction, and what the oracle of SC makes of it
(`43_a_atomics.md` R263; log 7). -/

namespace Sys2Proof.Machine

/-- `followLoop` changes the record only, and leaves that to a trap as it was. -/
theorem followLoop_next (i : Instr) (s t : State) : followLoop i s (.next t) =
    .next { t with retryLoop := if t.run = .running then nextLoop i s t else t.retryLoop } := by
  unfold followLoop
  cases t
  rename_i run _ _
  cases run <;> rfl

/-- What `followLoop` answers with a next state comes from a next state, which it equals but for the record. -/
theorem followLoop_cases {i : Instr} {s u : State} {r : Result} (h : followLoop i s r = .next u) :
    ∃ t, r = .next t ∧ u = { t with retryLoop := if t.run = .running then nextLoop i s t else t.retryLoop } := by
  cases r with
  | next t => rw [followLoop_next] at h; exact ⟨t, rfl, (Host.Outcome.next.inj h).symm⟩
  | fault f => cases h
  | refused r => cases h

/-- After an LR the record names it. -/
theorem nextLoop_of_lr {i : Instr} {s : State} {a : Nat × Nat} (t : State) (h : lrAccess s i = some a) :
    nextLoop i s t = some (loopAtLr s a.1 a.2) := by
  unfold nextLoop; rw [h]

/-- After any other instruction the record comes from the one before. -/
theorem nextLoop_of_not_lr {i : Instr} {s : State} (t : State) (h : lrAccess s i = none) :
    nextLoop i s t = s.retryLoop.bind (loopAfter i s t) := by
  unfold nextLoop; rw [h]

/-- The row of tries goes on at the LR that the branch of a failed try has come back to. -/
theorem loopAtLr_first_of_retrying {s : State} {first : Nat} (addr n : Nat)
    (h : s.retryLoop = some ⟨s.pc, first, .retrying⟩) : (loopAtLr s addr n).first = first := by
  unfold loopAtLr; rw [h]; simp

/-- Between LR and SC the record stays while the hart runs forward through allowed instructions. -/
theorem loopAfter_of_allowed {i : Instr} {s t : State} {start : Word} {first addr n : Nat}
    (hi : allowedBetween i = true) (ho : loopOffset start s < loopOffset start t) :
    loopAfter i s t ⟨start, first, .between addr n⟩ = some ⟨start, first, .between addr n⟩ := by
  simp [loopAfter, hi, ho]

/-- An SC is no instruction that may stand between. -/
theorem allowedBetween_of_scAccess {i : Instr} {s : State} {a : Nat × Nat} (h : scAccess s i = some a) :
    allowedBetween i = false := by
  cases i <;> first | rfl | (simp [scAccess] at h)

/-- A failed SC to the address and of the width of the LR, at the end of an allowed sequence, keeps the row. -/
theorem loopAfter_of_failed_sc {i : Instr} {s : State} {start : Word} {first addr n : Nat} (t : State)
    (hi : scAccess s i = some (addr, n)) (hf : scSucceeds s addr n = false) (ha : sequenceAllowed start s = true) :
    loopAfter i s t ⟨start, first, .between addr n⟩ = some ⟨start, first, .retrying⟩ := by
  simp [loopAfter, allowedBetween_of_scAccess hi, hi, hf, ha]

/-- The branch back to the LR keeps the row. -/
theorem loopAfter_of_branch_back {i : Instr} (s : State) {t : State} {start : Word} {first : Nat}
    (hi : isBranch i = true) (ht : t.pc = start) :
    loopAfter i s t ⟨start, first, .retrying⟩ = some ⟨start, first, .retrying⟩ := by
  simp [loopAfter, hi, ht]

/-- In a row of tries the consultations count on from its first. -/
theorem firstDraw_of_loop {s : State} {l : RetryLoop} (h : s.retryLoop = some l) : firstDraw s = l.first := by
  unfold firstDraw; rw [h]

/-- Outside one every consultation is the first of its own row. -/
theorem firstDraw_of_none {s : State} (h : s.retryLoop = none) : firstDraw s = s.scDraws := by
  unfold firstDraw; rw [h]

/-- When an SC of a reservation that holds succeeds (`43_a_atomics.md` R262 (c), (d)). -/
theorem scSucceeds_iff (s : State) (addr n : Nat) : scSucceeds s addr n = true ↔
    reserved s addr n = true ∧ (s.params.scMayFailSpuriously = false ∨
      firstDraw s + Config.scFailures (firstDraw s) ≤ s.scDraws) := by
  simp [scSucceeds, oracleAllows]

/-- Once a row has had as many consultations as the free value gives it failures, the next SC of a reservation that
holds succeeds. -/
theorem scSucceeds_of_row_over {s : State} {l : RetryLoop} {addr n : Nat} (hl : s.retryLoop = some l)
    (hr : reserved s addr n = true) (ho : l.first + Config.scFailures l.first ≤ s.scDraws) :
    scSucceeds s addr n = true := by
  rw [scSucceeds_iff, firstDraw_of_loop hl]; exact ⟨hr, .inr ho⟩

end Sys2Proof.Machine
end

