-- ==== Sys2Proof/Tests/Slice0.lean ====
section
/-! SUPPORT. The model's own tests: ill-formed terms refused, every constructor decoded from a word written out column
by column from `95_test_vectors.md` section 2 (`31:25 24:20 19:15 14:12 11:7 6:0`), the words of its section 3 refused,
single steps with the results of `96_execution_vectors.md`, and for each obligation with hypotheses a state and
operands that meet them. -/

section

set_option Elab.async false

namespace Sys2Proof.Tests

open Sys2Proof Sys2Proof.Machine

/-! ### Ill-formed terms are refused -/

/-- Odd offsets, the jump's and every branch's. -/
theorem test_odd_offsets_ill_formed : ∀ i ∈ (
    [.jal ⟨1⟩ 3, .beq ⟨1⟩ ⟨2⟩ 5, .bne ⟨1⟩ ⟨2⟩ 5, .blt ⟨1⟩ ⟨2⟩ 5, .bge ⟨1⟩ ⟨2⟩ 5, .bltu ⟨1⟩ ⟨2⟩ 5, .bgeu ⟨1⟩ ⟨2⟩ 5] : List Instr),
    i.wellFormed .rv32 = false ∧ i.wellFormed .rv64 = false := by
  decide

/-- The rows that exist only when `XLEN = 32`. -/
theorem test_rv32_rows_ill_formed_on_rv64 : ∀ i ∈ (
    [.slli32 ⟨1⟩ ⟨1⟩ 3, .srli32 ⟨1⟩ ⟨1⟩ 3, .srai32 ⟨1⟩ ⟨1⟩ 3] : List Instr),
    i.wellFormed .rv32 = true ∧ i.wellFormed .rv64 = false := by
  decide

/-- The rows that exist only when `XLEN = 64`. -/
theorem test_rv64_rows_ill_formed_on_rv32 : ∀ i ∈ (
    [.lwu ⟨1⟩ ⟨1⟩ 3, .ld ⟨1⟩ ⟨1⟩ 3, .sd ⟨1⟩ ⟨1⟩ 3, .slli64 ⟨1⟩ ⟨1⟩ 3, .srli64 ⟨1⟩ ⟨1⟩ 3, .srai64 ⟨1⟩ ⟨1⟩ 3,
      .addiw ⟨1⟩ ⟨1⟩ 3, .slliw ⟨1⟩ ⟨1⟩ 3, .srliw ⟨1⟩ ⟨1⟩ 3, .sraiw ⟨1⟩ ⟨1⟩ 3, .addw ⟨1⟩ ⟨1⟩ ⟨1⟩, .subw ⟨1⟩ ⟨1⟩ ⟨1⟩,
      .sllw ⟨1⟩ ⟨1⟩ ⟨1⟩, .srlw ⟨1⟩ ⟨1⟩ ⟨1⟩, .sraw ⟨1⟩ ⟨1⟩ ⟨1⟩, .mulw ⟨1⟩ ⟨1⟩ ⟨1⟩, .divw ⟨1⟩ ⟨1⟩ ⟨1⟩,
      .divuw ⟨1⟩ ⟨1⟩ ⟨1⟩, .remw ⟨1⟩ ⟨1⟩ ⟨1⟩, .remuw ⟨1⟩ ⟨1⟩ ⟨1⟩, .lrD true true ⟨1⟩ ⟨1⟩,
      .scD true true ⟨1⟩ ⟨1⟩ ⟨1⟩, .amoswapD true true ⟨1⟩ ⟨1⟩ ⟨1⟩, .amoaddD true true ⟨1⟩ ⟨1⟩ ⟨1⟩,
      .amoxorD true true ⟨1⟩ ⟨1⟩ ⟨1⟩, .amoorD true true ⟨1⟩ ⟨1⟩ ⟨1⟩, .amoandD true true ⟨1⟩ ⟨1⟩ ⟨1⟩,
      .amominD true true ⟨1⟩ ⟨1⟩ ⟨1⟩, .amomaxD true true ⟨1⟩ ⟨1⟩ ⟨1⟩, .amominuD true true ⟨1⟩ ⟨1⟩ ⟨1⟩,
      .amomaxuD true true ⟨1⟩ ⟨1⟩ ⟨1⟩, .fcvtLS 3 ⟨1⟩ ⟨2⟩, .fcvtLuS 3 ⟨1⟩ ⟨2⟩, .fcvtSL 3 ⟨2⟩ ⟨1⟩,
      .fcvtSLu 3 ⟨2⟩ ⟨1⟩, .fcvtLD 3 ⟨1⟩ ⟨2⟩, .fcvtLuD 3 ⟨1⟩ ⟨2⟩, .fcvtDL 3 ⟨2⟩ ⟨1⟩, .fcvtDLu 3 ⟨2⟩ ⟨1⟩,
      .fmvXD ⟨1⟩ ⟨2⟩, .fmvDX ⟨2⟩ ⟨1⟩] : List Instr),
    i.wellFormed .rv32 = false ∧ i.wellFormed .rv64 = true := by
  decide

/-! ### Decoding -/

/-- Every row of table RV32I, its word from `95_test_vectors.md` section 2. -/
theorem test_decode_rv32i : ∀ p ∈ (
    [(0b1000000_00000_00000_000_11111_0110111, .lui ⟨31⟩ 524288),
      (0b0000000_00000_00000_001_11111_0010111, .auipc ⟨31⟩ 1),
      (0b1111111_11101_11111_111_00001_1101111, .jal ⟨1⟩ (-4)),
      (0b0111111_11111_00110_000_00101_1100111, .jalr ⟨5⟩ ⟨6⟩ 2047),
      (0b0000000_00111_11110_000_01100_1100011, .beq ⟨30⟩ ⟨7⟩ 12),
      (0b0000000_00011_00010_001_01100_1100011, .bne ⟨2⟩ ⟨3⟩ 12),
      (0b1111111_11101_10000_100_11001_1100011, .blt ⟨16⟩ ⟨29⟩ (-8)),
      (0b0111111_00111_00010_101_11101_1100011, .bge ⟨2⟩ ⟨7⟩ 4092),
      (0b0111111_00111_10000_110_11101_1100011, .bltu ⟨16⟩ ⟨7⟩ 4092),
      (0b1111111_10001_01011_111_11001_1100011, .bgeu ⟨11⟩ ⟨17⟩ (-8)),
      (0b1111111_11111_11110_000_00101_0000011, .lb ⟨5⟩ ⟨30⟩ (-1)),
      (0b0000000_00100_01011_001_00001_0000011, .lh ⟨1⟩ ⟨11⟩ 4),
      (0b0000000_00100_00010_010_11111_0000011, .lw ⟨31⟩ ⟨2⟩ 4),
      (0b0111111_11111_10000_100_01010_0000011, .lbu ⟨10⟩ ⟨16⟩ 2047),
      (0b0000000_00100_11110_101_00001_0000011, .lhu ⟨1⟩ ⟨30⟩ 4),
      (0b0000000_10001_00110_000_01000_0100011, .sb ⟨6⟩ ⟨17⟩ 8),
      (0b1000000_01100_11110_001_00000_0100011, .sh ⟨30⟩ ⟨12⟩ (-2048)),
      (0b0111111_01100_00110_010_11111_0100011, .sw ⟨6⟩ ⟨12⟩ 2047),
      (0b1111111_11111_10000_000_01010_0010011, .addi ⟨10⟩ ⟨16⟩ (-1)),
      (0b0111111_11111_10000_010_01111_0010011, .slti ⟨15⟩ ⟨16⟩ 2047),
      (0b1000000_00000_10000_011_01010_0010011, .sltiu ⟨10⟩ ⟨16⟩ (-2048)),
      (0b1000000_00000_01011_100_00101_0010011, .xori ⟨5⟩ ⟨11⟩ (-2048)),
      (0b0000000_00100_10000_110_01111_0010011, .ori ⟨15⟩ ⟨16⟩ 4),
      (0b1000000_00000_11110_111_00101_0010011, .andi ⟨5⟩ ⟨30⟩ (-2048)),
      (0b0000000_00001_00110_001_00101_0010011, .slli32 ⟨5⟩ ⟨6⟩ 1),
      (0b0000000_00111_00010_101_00001_0010011, .srli32 ⟨1⟩ ⟨2⟩ 7),
      (0b0100000_00111_10000_101_00101_0010011, .srai32 ⟨5⟩ ⟨16⟩ 7),
      (0b0000000_11101_10000_000_00101_0110011, .add ⟨5⟩ ⟨16⟩ ⟨29⟩),
      (0b0100000_01100_00110_000_00001_0110011, .sub ⟨1⟩ ⟨6⟩ ⟨12⟩),
      (0b0000000_10001_10000_001_00001_0110011, .sll ⟨1⟩ ⟨16⟩ ⟨17⟩),
      (0b0000000_11101_11110_010_01111_0110011, .slt ⟨15⟩ ⟨30⟩ ⟨29⟩),
      (0b0000000_00011_01011_011_00101_0110011, .sltu ⟨5⟩ ⟨11⟩ ⟨3⟩),
      (0b0000000_00111_11110_100_01010_0110011, .xor ⟨10⟩ ⟨30⟩ ⟨7⟩),
      (0b0000000_00111_00110_101_00101_0110011, .srl ⟨5⟩ ⟨6⟩ ⟨7⟩),
      (0b0100000_01100_00010_101_00101_0110011, .sra ⟨5⟩ ⟨2⟩ ⟨12⟩),
      (0b0000000_00111_11110_110_00101_0110011, .or ⟨5⟩ ⟨30⟩ ⟨7⟩),
      (0b0000000_11101_10000_111_11111_0110011, .and ⟨31⟩ ⟨16⟩ ⟨29⟩),
      (0b0000001_10011_00000_000_00000_0001111, .fence 3 3),
      (0b0000000_00000_00000_001_00000_0001111, .fenceI),
      (0b0000000_00000_00000_000_00000_1110011, .ecall),
      (0b0000000_00001_00000_000_00000_1110011, .ebreak)] : List (InstWord × Instr)),
    (decodeWord .rv32 p.1).toOption = some p.2 := by
  decide +kernel

/-- Every row of table RV64I, its word from `95_test_vectors.md` section 2. -/
theorem test_decode_rv64i : ∀ p ∈ (
    [(0b1000000_00000_01011_110_11111_0000011, .lwu ⟨31⟩ ⟨11⟩ (-2048)),
      (0b0111111_11111_01011_011_00001_0000011, .ld ⟨1⟩ ⟨11⟩ 2047),
      (0b1000000_10001_11110_011_00000_0100011, .sd ⟨30⟩ ⟨17⟩ (-2048)),
      (0b0000000_00001_00110_001_01111_0010011, .slli64 ⟨15⟩ ⟨6⟩ 1),
      (0b0000000_00001_01011_101_11111_0010011, .srli64 ⟨31⟩ ⟨11⟩ 1),
      (0b0100001_11111_00110_101_11111_0010011, .srai64 ⟨31⟩ ⟨6⟩ 63),
      (0b1111111_11111_00110_000_01010_0011011, .addiw ⟨10⟩ ⟨6⟩ (-1)),
      (0b0000000_00111_00010_001_00001_0011011, .slliw ⟨1⟩ ⟨2⟩ 7),
      (0b0000000_11111_10000_101_01010_0011011, .srliw ⟨10⟩ ⟨16⟩ 31),
      (0b0100000_00001_00110_101_00101_0011011, .sraiw ⟨5⟩ ⟨6⟩ 1),
      (0b0000000_11101_00110_000_01111_0111011, .addw ⟨15⟩ ⟨6⟩ ⟨29⟩),
      (0b0100000_00011_00110_000_00101_0111011, .subw ⟨5⟩ ⟨6⟩ ⟨3⟩),
      (0b0000000_00011_01011_001_11111_0111011, .sllw ⟨31⟩ ⟨11⟩ ⟨3⟩),
      (0b0000000_10001_10000_101_11111_0111011, .srlw ⟨31⟩ ⟨16⟩ ⟨17⟩),
      (0b0100000_00111_11110_101_11111_0111011, .sraw ⟨31⟩ ⟨30⟩ ⟨7⟩)] : List (InstWord × Instr)),
    (decodeWord .rv64 p.1).toOption = some p.2 := by
  decide +kernel

/-- Every row of table RV32M, its word from `95_test_vectors.md` section 2. -/
theorem test_decode_rv32m : ∀ p ∈ (
    [(0b0000001_11101_00110_000_01010_0110011, .mul ⟨10⟩ ⟨6⟩ ⟨29⟩),
      (0b0000001_10001_10000_001_01111_0110011, .mulh ⟨15⟩ ⟨16⟩ ⟨17⟩),
      (0b0000001_00111_00110_010_00001_0110011, .mulhsu ⟨1⟩ ⟨6⟩ ⟨7⟩),
      (0b0000001_10001_00110_011_11111_0110011, .mulhu ⟨31⟩ ⟨6⟩ ⟨17⟩),
      (0b0000001_11101_01011_100_01111_0110011, .div ⟨15⟩ ⟨11⟩ ⟨29⟩),
      (0b0000001_11101_11110_101_00101_0110011, .divu ⟨5⟩ ⟨30⟩ ⟨29⟩),
      (0b0000001_01100_01011_110_00001_0110011, .rem ⟨1⟩ ⟨11⟩ ⟨12⟩),
      (0b0000001_00011_11110_111_00101_0110011, .remu ⟨5⟩ ⟨30⟩ ⟨3⟩)] : List (InstWord × Instr)),
    (decodeWord .rv32 p.1).toOption = some p.2 := by
  decide +kernel

/-- Every row of table RV64M, its word from `95_test_vectors.md` section 2. -/
theorem test_decode_rv64m : ∀ p ∈ (
    [(0b0000001_00111_00110_000_00001_0111011, .mulw ⟨1⟩ ⟨6⟩ ⟨7⟩),
      (0b0000001_11101_11110_100_01111_0111011, .divw ⟨15⟩ ⟨30⟩ ⟨29⟩),
      (0b0000001_00011_00010_101_01111_0111011, .divuw ⟨15⟩ ⟨2⟩ ⟨3⟩),
      (0b0000001_00111_00110_110_00001_0111011, .remw ⟨1⟩ ⟨6⟩ ⟨7⟩),
      (0b0000001_11101_00110_111_00001_0111011, .remuw ⟨1⟩ ⟨6⟩ ⟨29⟩)] : List (InstWord × Instr)),
    (decodeWord .rv64 p.1).toOption = some p.2 := by
  decide +kernel

/-- Every row of table RV32A, its word from `95_test_vectors.md` section 2. -/
theorem test_decode_rv32a : ∀ p ∈ (
    [(0b0001011_00000_11110_010_00101_0101111, .lrW true true ⟨5⟩ ⟨30⟩),
      (0b0001111_00111_00010_010_11111_0101111, .scW true true ⟨31⟩ ⟨2⟩ ⟨7⟩),
      (0b0000111_00011_00110_010_01111_0101111, .amoswapW true true ⟨15⟩ ⟨6⟩ ⟨3⟩),
      (0b0000011_11101_01011_010_01010_0101111, .amoaddW true true ⟨10⟩ ⟨11⟩ ⟨29⟩),
      (0b0010010_00011_01011_010_00001_0101111, .amoxorW true false ⟨1⟩ ⟨11⟩ ⟨3⟩),
      (0b0100010_10001_11110_010_00001_0101111, .amoorW true false ⟨1⟩ ⟨30⟩ ⟨17⟩),
      (0b0110000_01100_11110_010_00001_0101111, .amoandW false false ⟨1⟩ ⟨30⟩ ⟨12⟩),
      (0b1000001_01100_01011_010_01111_0101111, .amominW false true ⟨15⟩ ⟨11⟩ ⟨12⟩),
      (0b1010011_00111_01011_010_01111_0101111, .amomaxW true true ⟨15⟩ ⟨11⟩ ⟨7⟩),
      (0b1100001_11101_10000_010_01111_0101111, .amominuW false true ⟨15⟩ ⟨16⟩ ⟨29⟩),
      (0b1110011_00111_01011_010_00001_0101111, .amomaxuW true true ⟨1⟩ ⟨11⟩ ⟨7⟩)] : List (InstWord × Instr)),
    (decodeWord .rv32 p.1).toOption = some p.2 := by
  decide +kernel

/-- Every row of table RV64A, its word from `95_test_vectors.md` section 2. -/
theorem test_decode_rv64a : ∀ p ∈ (
    [(0b0001001_00000_10000_011_00101_0101111, .lrD false true ⟨5⟩ ⟨16⟩),
      (0b0001101_00111_11110_011_11111_0101111, .scD false true ⟨31⟩ ⟨30⟩ ⟨7⟩),
      (0b0000101_01100_10000_011_01111_0101111, .amoswapD false true ⟨15⟩ ⟨16⟩ ⟨12⟩),
      (0b0000010_11101_01011_011_01111_0101111, .amoaddD true false ⟨15⟩ ⟨11⟩ ⟨29⟩),
      (0b0010000_11101_00110_011_00101_0101111, .amoxorD false false ⟨5⟩ ⟨6⟩ ⟨29⟩),
      (0b0100000_00111_00110_011_01111_0101111, .amoorD false false ⟨15⟩ ⟨6⟩ ⟨7⟩),
      (0b0110000_01100_00010_011_00001_0101111, .amoandD false false ⟨1⟩ ⟨2⟩ ⟨12⟩),
      (0b1000001_00011_00010_011_01010_0101111, .amominD false true ⟨10⟩ ⟨2⟩ ⟨3⟩),
      (0b1010011_11101_11110_011_01010_0101111, .amomaxD true true ⟨10⟩ ⟨30⟩ ⟨29⟩),
      (0b1100000_00011_10000_011_00101_0101111, .amominuD false false ⟨5⟩ ⟨16⟩ ⟨3⟩),
      (0b1110010_00111_01011_011_00101_0101111, .amomaxuD true false ⟨5⟩ ⟨11⟩ ⟨7⟩)] : List (InstWord × Instr)),
    (decodeWord .rv64 p.1).toOption = some p.2 := by
  decide +kernel

/-- Every row of table RV32F, its word from `95_test_vectors.md` section 2. -/
theorem test_decode_rv32f : ∀ p ∈ (
    [(0b1111111_11111_01011_010_01111_0000111, .flw ⟨15⟩ ⟨11⟩ (-1)),
      (0b0111111_11101_00110_010_11111_0100111, .fsw ⟨6⟩ ⟨29⟩ 2047),
      (0b0010000_11101_00010_111_01010_1000011, .fmaddS 7 ⟨10⟩ ⟨2⟩ ⟨29⟩ ⟨4⟩),
      (0b1110000_11101_00010_001_00101_1000111, .fmsubS 1 ⟨5⟩ ⟨2⟩ ⟨29⟩ ⟨28⟩),
      (0b0010000_00111_11110_100_01010_1001011, .fnmsubS 4 ⟨10⟩ ⟨30⟩ ⟨7⟩ ⟨4⟩),
      (0b0010000_11101_00110_111_00101_1001111, .fnmaddS 7 ⟨5⟩ ⟨6⟩ ⟨29⟩ ⟨4⟩),
      (0b0000000_01100_10000_001_00101_1010011, .faddS 1 ⟨5⟩ ⟨16⟩ ⟨12⟩),
      (0b0000100_01100_11110_100_00001_1010011, .fsubS 4 ⟨1⟩ ⟨30⟩ ⟨12⟩),
      (0b0001000_00111_10000_100_00001_1010011, .fmulS 4 ⟨1⟩ ⟨16⟩ ⟨7⟩),
      (0b0001100_10001_10000_001_00001_1010011, .fdivS 1 ⟨1⟩ ⟨16⟩ ⟨17⟩),
      (0b0010000_10001_00010_000_00001_1010011, .fsgnjS ⟨1⟩ ⟨2⟩ ⟨17⟩),
      (0b0010000_01100_01011_001_00001_1010011, .fsgnjnS ⟨1⟩ ⟨11⟩ ⟨12⟩),
      (0b0010000_00011_00110_010_00001_1010011, .fsgnjxS ⟨1⟩ ⟨6⟩ ⟨3⟩),
      (0b0010100_01100_10000_000_00001_1010011, .fminS ⟨1⟩ ⟨16⟩ ⟨12⟩),
      (0b0010100_01100_11110_001_01010_1010011, .fmaxS ⟨10⟩ ⟨30⟩ ⟨12⟩),
      (0b0101100_00000_01011_010_00101_1010011, .fsqrtS 2 ⟨5⟩ ⟨11⟩),
      (0b1010000_00011_11110_000_00101_1010011, .fleS ⟨5⟩ ⟨30⟩ ⟨3⟩),
      (0b1010000_00111_01011_001_01010_1010011, .fltS ⟨10⟩ ⟨11⟩ ⟨7⟩),
      (0b1010000_00011_00010_010_01010_1010011, .feqS ⟨10⟩ ⟨2⟩ ⟨3⟩),
      (0b1100000_00000_11110_000_00001_1010011, .fcvtWS 0 ⟨1⟩ ⟨30⟩),
      (0b1100000_00001_10000_100_00101_1010011, .fcvtWuS 4 ⟨5⟩ ⟨16⟩),
      (0b1101000_00000_00010_010_11111_1010011, .fcvtSW 2 ⟨31⟩ ⟨2⟩),
      (0b1101000_00001_10000_111_01010_1010011, .fcvtSWu 7 ⟨10⟩ ⟨16⟩),
      (0b1110000_00000_00110_000_00101_1010011, .fmvXS ⟨5⟩ ⟨6⟩),
      (0b1110000_00000_10000_001_01010_1010011, .fclassS ⟨10⟩ ⟨16⟩),
      (0b1111000_00000_10000_000_11111_1010011, .fmvSX ⟨31⟩ ⟨16⟩),
      (0b0000000_00011_00000_010_00101_1110011, .frcsr ⟨5⟩),
      (0b0000000_00010_00000_010_01010_1110011, .frrm ⟨10⟩),
      (0b0000000_00001_00000_010_11111_1110011, .frflags ⟨31⟩),
      (0b0000000_00011_00110_001_00001_1110011, .fscsr ⟨1⟩ ⟨6⟩),
      (0b0000000_00010_10000_001_01010_1110011, .fsrm ⟨10⟩ ⟨16⟩),
      (0b0000000_00001_01011_001_01010_1110011, .fsflags ⟨10⟩ ⟨11⟩),
      (0b0000000_00010_00001_101_00001_1110011, .fsrmi ⟨1⟩ 1),
      (0b0000000_00001_00011_101_00001_1110011, .fsflagsi ⟨1⟩ 3)] : List (InstWord × Instr)),
    (decodeWord .rv32 p.1).toOption = some p.2 := by
  decide +kernel

/-- Every row of table RV64F, its word from `95_test_vectors.md` section 2. -/
theorem test_decode_rv64f : ∀ p ∈ (
    [(0b1100000_00010_00010_001_00001_1010011, .fcvtLS 1 ⟨1⟩ ⟨2⟩),
      (0b1100000_00011_00110_100_01111_1010011, .fcvtLuS 4 ⟨15⟩ ⟨6⟩),
      (0b1101000_00010_10000_111_01111_1010011, .fcvtSL 7 ⟨15⟩ ⟨16⟩),
      (0b1101000_00011_00110_111_00101_1010011, .fcvtSLu 7 ⟨5⟩ ⟨6⟩)] : List (InstWord × Instr)),
    (decodeWord .rv64 p.1).toOption = some p.2 := by
  decide +kernel

/-- Every row of table RV32D, its word from `95_test_vectors.md` section 2. -/
theorem test_decode_rv32d : ∀ p ∈ (
    [(0b1111111_11111_10000_011_01010_0000111, .fld ⟨10⟩ ⟨16⟩ (-1)),
      (0b0111111_11101_00110_011_11111_0100111, .fsd ⟨6⟩ ⟨29⟩ 2047),
      (0b0110101_10001_10000_111_01111_1000011, .fmaddD 7 ⟨15⟩ ⟨16⟩ ⟨17⟩ ⟨13⟩),
      (0b0100001_00111_10000_011_00101_1000111, .fmsubD 3 ⟨5⟩ ⟨16⟩ ⟨7⟩ ⟨8⟩),
      (0b0010001_00111_00010_011_01010_1001011, .fnmsubD 3 ⟨10⟩ ⟨2⟩ ⟨7⟩ ⟨4⟩),
      (0b1001001_00111_01011_100_01111_1001111, .fnmaddD 4 ⟨15⟩ ⟨11⟩ ⟨7⟩ ⟨18⟩),
      (0b0000001_01100_01011_111_01111_1010011, .faddD 7 ⟨15⟩ ⟨11⟩ ⟨12⟩),
      (0b0000101_11101_00110_011_00101_1010011, .fsubD 3 ⟨5⟩ ⟨6⟩ ⟨29⟩),
      (0b0001001_00111_11110_111_11111_1010011, .fmulD 7 ⟨31⟩ ⟨30⟩ ⟨7⟩),
      (0b0001101_10001_11110_011_00001_1010011, .fdivD 3 ⟨1⟩ ⟨30⟩ ⟨17⟩),
      (0b0010001_00011_00010_000_01111_1010011, .fsgnjD ⟨15⟩ ⟨2⟩ ⟨3⟩),
      (0b0010001_00011_10000_001_01111_1010011, .fsgnjnD ⟨15⟩ ⟨16⟩ ⟨3⟩),
      (0b0010001_11101_00010_010_01010_1010011, .fsgnjxD ⟨10⟩ ⟨2⟩ ⟨29⟩),
      (0b0010101_00011_10000_000_01111_1010011, .fminD ⟨15⟩ ⟨16⟩ ⟨3⟩),
      (0b0010101_00011_00010_001_00001_1010011, .fmaxD ⟨1⟩ ⟨2⟩ ⟨3⟩),
      (0b0101101_00000_00010_011_00101_1010011, .fsqrtD 3 ⟨5⟩ ⟨2⟩),
      (0b1010001_11101_00110_000_00001_1010011, .fleD ⟨1⟩ ⟨6⟩ ⟨29⟩),
      (0b1010001_00111_10000_001_00001_1010011, .fltD ⟨1⟩ ⟨16⟩ ⟨7⟩),
      (0b1010001_10001_11110_010_11111_1010011, .feqD ⟨31⟩ ⟨30⟩ ⟨17⟩),
      (0b1100001_00000_00110_010_01010_1010011, .fcvtWD 2 ⟨10⟩ ⟨6⟩),
      (0b1100001_00001_10000_011_00001_1010011, .fcvtWuD 3 ⟨1⟩ ⟨16⟩),
      (0b1101001_00000_00110_100_01111_1010011, .fcvtDW 4 ⟨15⟩ ⟨6⟩),
      (0b1101001_00001_11110_011_00101_1010011, .fcvtDWu 3 ⟨5⟩ ⟨30⟩),
      (0b1110001_00000_11110_001_11111_1010011, .fclassD ⟨31⟩ ⟨30⟩)] : List (InstWord × Instr)),
    (decodeWord .rv32 p.1).toOption = some p.2 := by
  decide +kernel

/-- Every row of table RV64D, its word from `95_test_vectors.md` section 2. -/
theorem test_decode_rv64d : ∀ p ∈ (
    [(0b1100001_00010_01011_000_11111_1010011, .fcvtLD 0 ⟨31⟩ ⟨11⟩),
      (0b1100001_00011_11110_011_00001_1010011, .fcvtLuD 3 ⟨1⟩ ⟨30⟩),
      (0b1101001_00010_10000_000_00101_1010011, .fcvtDL 0 ⟨5⟩ ⟨16⟩),
      (0b1101001_00011_10000_010_00001_1010011, .fcvtDLu 2 ⟨1⟩ ⟨16⟩),
      (0b1110001_00000_11110_000_01010_1010011, .fmvXD ⟨10⟩ ⟨30⟩),
      (0b1111001_00000_00010_000_11111_1010011, .fmvDX ⟨31⟩ ⟨2⟩)] : List (InstWord × Instr)),
    (decodeWord .rv64 p.1).toOption = some p.2 := by
  decide +kernel

/-- The words of `95_test_vectors.md` section 3 that are illegal when `XLEN = 32`. -/
theorem test_reserved_words_rv32 : ∀ w ∈ (
    [0x00000000, 0xFFFFFFFF, 0x00000001, 0x0000000B, 0x30200073, 0x10200073, 0x10500073, 0x30001073, 0xC0002573,
      0x0030A073, 0x0030B073, 0x00306073, 0x00402573, 0x00200073, 0x001000F3, 0x02051513, 0x43F55513, 0x04051513,
      0x0000B183, 0x0030B023, 0x0000E183, 0x0010819B, 0x022081BB, 0x0200103B, 0x40001033, 0x42000033, 0x00009067,
      0x00002063, 0x00003063, 0x00007003, 0x00004023, 0x0FF0008F, 0x0FF0800F, 0x8330000F, 0x0010100F, 0x0000200F,
      0x0000002F, 0x1020A1AF, 0x2820A1AF, 0x1000B1AF, 0x0020B1AF, 0x4010F1D3, 0x420081D3, 0x2020B1D3, 0x2820A1D3,
      0xA020B1D3, 0xE01081D3, 0xC04081D3, 0x581081D3, 0xE00021D3, 0x00009007, 0x0000C007, 0x04000043, 0x06000043,
      0x04000053, 0xC02091D3, 0xD23081D3, 0xE20081D3, 0xF20081D3] : List Nat),
    (decodeWord .rv32 (BitVec.ofNat 32 w)).toOption = none := by
  decide +kernel

/-- The words of `95_test_vectors.md` section 3 that are illegal when `XLEN = 64`. -/
theorem test_reserved_words_rv64 : ∀ w ∈ (
    [0x00000000, 0xFFFFFFFF, 0x00000001, 0x0000000B, 0x30200073, 0x10200073, 0x10500073, 0x30001073, 0xC0002573,
      0x0030A073, 0x0030B073, 0x00306073, 0x00402573, 0x00200073, 0x001000F3, 0x04051513, 0x0200103B, 0x40001033,
      0x42000033, 0x00009067, 0x00002063, 0x00003063, 0x00007003, 0x00004023, 0x0FF0008F, 0x0FF0800F, 0x8330000F,
      0x0010100F, 0x0000200F, 0x0000002F, 0x1020A1AF, 0x2820A1AF, 0x4010F1D3, 0x420081D3, 0x2020B1D3, 0x2820A1D3,
      0xA020B1D3, 0xE01081D3, 0xC04081D3, 0x581081D3, 0xE00021D3, 0x00009007, 0x0000C007, 0x04000043, 0x06000043,
      0x04000053] : List Nat),
    (decodeWord .rv64 (BitVec.ofNat 32 w)).toOption = none := by
  decide +kernel

/-! ### Small states -/

/-- The parameters of the vectors: everything valid, SC never fails spuriously. -/
def params (x : XLen) : Params := { Config.defaultParams with xlen := x, scMayFailSpuriously := false }

/-- A state at 0x1000 whose next instruction is the word `w`, with some registers and bytes set. -/
def stateAt (x : XLen) (w : Nat) (xs fs mem : List (Nat × Nat)) : State :=
  let s0 := State.resetWith (params x) (Vector.replicate 32 0) (Vector.replicate 32 0) 0 []
  let s1 := xs.foldl (fun s p => writeX ⟨BitVec.ofNat 5 p.1⟩ (BitVec.ofNat 64 p.2) s) s0
  let s2 := fs.foldl (fun s p => writeF ⟨BitVec.ofNat 5 p.1⟩ (BitVec.ofNat 64 p.2) s) s1
  let s3 := { s2 with mem := mem.foldl (fun (m : Memory) (p : Nat × Nat) => m.write p.1 (BitVec.ofNat 8 p.2)) s2.mem }
  s3.withFetchWord 32 w

/-- The same with `XLEN = 32`. -/
def at32 : Nat → List (Nat × Nat) → List (Nat × Nat) → List (Nat × Nat) → State := stateAt .rv32
/-- The same with `XLEN = 64`. -/
def at64 : Nat → List (Nat × Nat) → List (Nat × Nat) → List (Nat × Nat) → State := stateAt .rv64

/-- The state after one step, if there is one. -/
def after (s : State) : Option State :=
  match step s with
  | .next t => some t
  | .fault _ => none
  | .refused _ => none

/-! ### Single steps: the results of `96_execution_vectors.md` -/

/-- `96_execution_vectors.md` VI1. -/
theorem test_lui_runs :
    (after (at32 0xfffff2b7 [] [] [])).map (fun t => readX 64 t ⟨5⟩) = some 0xfffff000 := by
  decide +kernel

/-- `96_execution_vectors.md` VI5. -/
theorem test_auipc_runs :
    (after (at32 0x00001297 [] [] [])).map (fun t => readX 64 t ⟨5⟩) = some 0x2000 := by
  decide +kernel

/-- `96_execution_vectors.md` VI8. -/
theorem test_jal_runs :
    (after (at32 0x008000ef [] [] [])).map (fun t => (readX 64 t ⟨1⟩, t.pc)) = some (0x1004, 0x1008) := by
  decide +kernel

/-- `96_execution_vectors.md` VI10. -/
theorem test_jal_traps :
    (after (at32 0x002000ef [(1, 0xaaaa)] [] [])).map (·.run)
      = some (.stopped ⟨.instructionAddressMisaligned, 0x1002⟩) := by
  decide +kernel

/-- `96_execution_vectors.md` VI13. -/
theorem test_jalr_runs :
    (after (at32 0x000100e7 [(2, 0x2001)] [] [])).map (fun t => (readX 64 t ⟨1⟩, t.pc)) = some (0x1004, 0x2000) := by
  decide +kernel

/-- `96_execution_vectors.md` VI16. -/
theorem test_jalr_traps :
    (after (at32 0x003100e7 [(1, 0xaaaa), (2, 0x2000)] [] [])).map (·.run)
      = some (.stopped ⟨.instructionAddressMisaligned, 0x2002⟩) := by
  decide +kernel

/-- `96_execution_vectors.md` VI18. -/
theorem test_beq_runs :
    (after (at32 0x00208863 [(1, 0x7), (2, 0x7)] [] [])).map (fun t => t.pc) = some 0x1010 := by
  decide +kernel

/-- `96_execution_vectors.md` VI27. -/
theorem test_beq_traps :
    (after (at32 0x00000363 [] [] [])).map (·.run) = some (.stopped ⟨.instructionAddressMisaligned, 0x1006⟩) := by
  decide +kernel

/-- `96_execution_vectors.md` VI28. -/
theorem test_bne_runs :
    (after (at32 0x00001363 [] [] [])).map (fun t => t.pc) = some 0x1004 := by
  decide +kernel

/-- `96_execution_vectors.md` VI21. -/
theorem test_blt_runs :
    (after (at32 0x0020c463 [(1, 0xffffffff), (2, 0x1)] [] [])).map (fun t => t.pc) = some 0x1008 := by
  decide +kernel

/-- `96_execution_vectors.md` VI23. -/
theorem test_bge_runs :
    (after (at32 0x0020d463 [(1, 0x5), (2, 0x5)] [] [])).map (fun t => t.pc) = some 0x1008 := by
  decide +kernel

/-- `96_execution_vectors.md` VI22. -/
theorem test_bltu_runs :
    (after (at32 0x0020e463 [(1, 0xffffffff), (2, 0x1)] [] [])).map (fun t => t.pc) = some 0x1004 := by
  decide +kernel

/-- `96_execution_vectors.md` VI25. -/
theorem test_bgeu_runs :
    (after (at32 0x0020f463 [(1, 0x80000000), (2, 0x7fffffff)] [] [])).map (fun t => t.pc) = some 0x1008 := by
  decide +kernel

/-- `96_execution_vectors.md` VI29. -/
theorem test_lb_runs :
    (after (at32 0x00008183 [(1, 0x2000)] []
      [(0x2000, 0x84), (0x2001, 0xf3), (0x2002, 0x82), (0x2003, 0x81)])).map (fun t => readX 64 t ⟨3⟩) = some 0xffffff84 := by
  decide +kernel

/-- `96_execution_vectors.md` VI32. -/
theorem test_lh_runs :
    (after (at32 0x00209183 [(1, 0x2000)] []
      [(0x2000, 0x84), (0x2001, 0xf3), (0x2002, 0x82), (0x2003, 0x81)])).map (fun t => readX 64 t ⟨3⟩) = some 0xffff8182 := by
  decide +kernel

/-- `96_execution_vectors.md` VI34. -/
theorem test_lh_traps :
    (after (at32 0x00109183 [(1, 0x2000), (3, 0x55)] []
      [(0x2000, 0x84), (0x2001, 0xf3), (0x2002, 0x82), (0x2003, 0x81)])).map (·.run) = some (.stopped ⟨.loadAddressMisaligned, 0x2001⟩) := by
  decide +kernel

/-- `96_execution_vectors.md` VI35. -/
theorem test_lw_runs :
    (after (at32 0xffc0a183 [(1, 0x2004)] []
      [(0x2000, 0x84), (0x2001, 0xf3), (0x2002, 0x82), (0x2003, 0x81)])).map (fun t => readX 64 t ⟨3⟩) = some 0x8182f384 := by
  decide +kernel

/-- `96_execution_vectors.md` VI39. -/
theorem test_lw_traps :
    (after (at32 0x0020a003 [(1, 0x2000)] [] [])).map (·.run) = some (.stopped ⟨.loadAddressMisaligned, 0x2002⟩) := by
  decide +kernel

/-- `96_execution_vectors.md` VI30. -/
theorem test_lbu_runs :
    (after (at32 0x0000c183 [(1, 0x2000)] []
      [(0x2000, 0x84), (0x2001, 0xf3), (0x2002, 0x82), (0x2003, 0x81)])).map (fun t => readX 64 t ⟨3⟩) = some 0x84 := by
  decide +kernel

/-- `96_execution_vectors.md` VI33. -/
theorem test_lhu_runs :
    (after (at32 0x0020d183 [(1, 0x2000)] []
      [(0x2000, 0x84), (0x2001, 0xf3), (0x2002, 0x82), (0x2003, 0x81)])).map (fun t => readX 64 t ⟨3⟩) = some 0x8182 := by
  decide +kernel

/-- `96_execution_vectors.md` VI41. -/
theorem test_sb_runs :
    (after (at32 0x002080a3 [(1, 0x2000), (2, 0xa1b2c3d4)] []
      [(0x2000, 0x0), (0x2001, 0x0), (0x2002, 0x0), (0x2003, 0x0)])).map (fun t => t.mem.readBytes [0x2001]) = some [0xd4] := by
  decide +kernel

/-- `96_execution_vectors.md` VI42. -/
theorem test_sh_runs :
    (after (at32 0x00209123 [(1, 0x2000), (2, 0xa1b2c3d4)] []
      [(0x2000, 0x0), (0x2001, 0x0), (0x2002, 0x0), (0x2003, 0x0)])).map (fun t => t.mem.readBytes [0x2002, 0x2003]) = some [0xd4, 0xc3] := by
  decide +kernel

/-- `96_execution_vectors.md` VI45. -/
theorem test_sh_traps :
    (after (at32 0x002090a3 [(1, 0x2000), (2, 0xa1b2c3d4)] []
      [(0x2000, 0x0), (0x2001, 0x0), (0x2002, 0x0), (0x2003, 0x0)])).map (·.run) = some (.stopped ⟨.storeAMOAddressMisaligned, 0x2001⟩) := by
  decide +kernel

/-- `96_execution_vectors.md` VI43. -/
theorem test_sw_runs :
    (after (at32 0x0020a023 [(1, 0x2000), (2, 0xa1b2c3d4)] []
      [(0x2000, 0x0), (0x2001, 0x0), (0x2002, 0x0), (0x2003, 0x0)])).map (fun t => t.mem.readBytes [0x2000, 0x2001, 0x2002, 0x2003]) = some [0xd4, 0xc3, 0xb2, 0xa1] := by
  decide +kernel

/-- `96_execution_vectors.md` VI47. -/
theorem test_addi_runs :
    (after (at32 0x00108193 [(1, 0x7fffffff)] [] [])).map (fun t => readX 64 t ⟨3⟩) = some 0x80000000 := by
  decide +kernel

/-- `96_execution_vectors.md` VI51. -/
theorem test_slti_runs :
    (after (at32 0x0000a193 [(1, 0xffffffff)] [] [])).map (fun t => readX 64 t ⟨3⟩) = some 0x1 := by
  decide +kernel

/-- `96_execution_vectors.md` VI52. -/
theorem test_sltiu_runs :
    (after (at32 0xfff0b193 [(1, 0xfffffffe)] [] [])).map (fun t => readX 64 t ⟨3⟩) = some 0x1 := by
  decide +kernel

/-- `96_execution_vectors.md` VI55. -/
theorem test_xori_runs :
    (after (at32 0xfff0c193 [(1, 0xf0f1234)] [] [])).map (fun t => readX 64 t ⟨3⟩) = some 0xf0f0edcb := by
  decide +kernel

/-- `96_execution_vectors.md` VI56. -/
theorem test_ori_runs :
    (after (at64 0x8000e193 [(1, 0x5)] [] [])).map (fun t => readX 64 t ⟨3⟩) = some 0xfffffffffffff805 := by
  decide +kernel

/-- `96_execution_vectors.md` VI57. -/
theorem test_andi_runs :
    (after (at32 0x7ff0f193 [(1, 0xffffffff)] [] [])).map (fun t => readX 64 t ⟨3⟩) = some 0x7ff := by
  decide +kernel

/-- `96_execution_vectors.md` VI58. -/
theorem test_slli32_runs :
    (after (at32 0x01f09193 [(1, 0x3)] [] [])).map (fun t => readX 64 t ⟨3⟩) = some 0x80000000 := by
  decide +kernel

/-- `96_execution_vectors.md` VI60. -/
theorem test_srli32_runs :
    (after (at32 0x01f0d193 [(1, 0x80000000)] [] [])).map (fun t => readX 64 t ⟨3⟩) = some 0x1 := by
  decide +kernel

/-- `96_execution_vectors.md` VI61. -/
theorem test_srai32_runs :
    (after (at32 0x41f0d193 [(1, 0x80000000)] [] [])).map (fun t => readX 64 t ⟨3⟩) = some 0xffffffff := by
  decide +kernel

/-- `96_execution_vectors.md` VI63. -/
theorem test_add_runs :
    (after (at32 0x002081b3 [(1, 0xffffffff), (2, 0x1)] [] [])).map (fun t => readX 64 t ⟨3⟩) = some 0x0 := by
  decide +kernel

/-- `96_execution_vectors.md` VI65. -/
theorem test_sub_runs :
    (after (at32 0x402081b3 [(1, 0x0), (2, 0x1)] [] [])).map (fun t => readX 64 t ⟨3⟩) = some 0xffffffff := by
  decide +kernel

/-- `96_execution_vectors.md` VI67. -/
theorem test_sll_runs :
    (after (at32 0x002091b3 [(1, 0x1), (2, 0x21)] [] [])).map (fun t => readX 64 t ⟨3⟩) = some 0x2 := by
  decide +kernel

/-- `96_execution_vectors.md` VI70. -/
theorem test_slt_runs :
    (after (at32 0x0020a1b3 [(1, 0x80000000), (2, 0x7fffffff)] [] [])).map (fun t => readX 64 t ⟨3⟩) = some 0x1 := by
  decide +kernel

/-- `96_execution_vectors.md` VI71. -/
theorem test_sltu_runs :
    (after (at32 0x0020b1b3 [(1, 0x80000000), (2, 0x7fffffff)] [] [])).map (fun t => readX 64 t ⟨3⟩) = some 0x0 := by
  decide +kernel

/-- `96_execution_vectors.md` VI73. -/
theorem test_xor_runs :
    (after (at32 0x0010c1b3 [(1, 0xdeadbeef), (3, 0x77)] [] [])).map (fun t => readX 64 t ⟨3⟩) = some 0x0 := by
  decide +kernel

/-- `96_execution_vectors.md` VI74. -/
theorem test_srl_runs :
    (after (at32 0x0020d1b3 [(1, 0x80000000), (2, 0xffffffe4)] [] [])).map (fun t => readX 64 t ⟨3⟩)
      = some 0x8000000 := by
  decide +kernel

/-- `96_execution_vectors.md` VI75. -/
theorem test_sra_runs :
    (after (at32 0x4020d1b3 [(1, 0x80000000), (2, 0xffffffe4)] [] [])).map (fun t => readX 64 t ⟨3⟩)
      = some 0xf8000000 := by
  decide +kernel

/-- `96_execution_vectors.md` VI77. -/
theorem test_or_runs :
    (after (at32 0x0020e1b3 [(1, 0xf0f00000), (2, 0xf0f0)] [] [])).map (fun t => readX 64 t ⟨3⟩)
      = some 0xf0f0f0f0 := by
  decide +kernel

/-- `96_execution_vectors.md` VI78. -/
theorem test_and_runs :
    (after (at32 0x0020f1b3 [(1, 0xff00ff00), (2, 0xff00ff0)] [] [])).map (fun t => readX 64 t ⟨3⟩)
      = some 0xf000f00 := by
  decide +kernel

/-- `96_execution_vectors.md` VI79. -/
theorem test_fence_runs :
    (after (at32 0x0330000f [] [] [])).map (fun t => t.pc) = some 0x1004 := by
  decide +kernel

/-- `96_execution_vectors.md` VI80. -/
theorem test_fenceI_runs :
    (after (at32 0x0000100f [] [] [])).map (fun t => t.pc) = some 0x1004 := by
  decide +kernel

/-- `96_execution_vectors.md` VI81. -/
theorem test_ecall_traps :
    (after (at32 0x00000073 [] [] [])).map (·.run) = some (.stopped ⟨.environmentCall, 0x0⟩) := by
  decide +kernel

/-- `96_execution_vectors.md` VI82. -/
theorem test_ebreak_traps :
    (after (at32 0x00100073 [] [] [])).map (·.run) = some (.stopped ⟨.breakpoint, 0x1000⟩) := by
  decide +kernel

/-- `96_execution_vectors.md` VW1. -/
theorem test_lwu_runs :
    (after (at64 0x0040e183 [(1, 0x2000)] []
      [(0x2000, 0xc4), (0x2001, 0xd3), (0x2002, 0xe2), (0x2003, 0xf1), (0x2004, 0x84), (0x2005, 0xf3), (0x2006, 0x82), (0x2007, 0x81)])).map (fun t => readX 64 t ⟨3⟩) = some 0x8182f384 := by
  decide +kernel

/-- `96_execution_vectors.md` VW3. -/
theorem test_ld_runs :
    (after (at64 0x0000b183 [(1, 0x2000)] []
      [(0x2000, 0xc4), (0x2001, 0xd3), (0x2002, 0xe2), (0x2003, 0xf1), (0x2004, 0x84), (0x2005, 0xf3), (0x2006, 0x82), (0x2007, 0x81)])).map (fun t => readX 64 t ⟨3⟩) = some 0x8182f384f1e2d3c4 := by
  decide +kernel

/-- `96_execution_vectors.md` VW4. -/
theorem test_ld_traps :
    (after (at64 0x0040b183 [(1, 0x2000), (3, 0x9)] []
      [(0x2000, 0xc4), (0x2001, 0xd3), (0x2002, 0xe2), (0x2003, 0xf1), (0x2004, 0x84), (0x2005, 0xf3), (0x2006, 0x82), (0x2007, 0x81)])).map (·.run) = some (.stopped ⟨.loadAddressMisaligned, 0x2004⟩) := by
  decide +kernel

/-- `96_execution_vectors.md` VW5. -/
theorem test_sd_runs :
    (after (at64 0x0020b423 [(1, 0x2000), (2, 0x102030405060708)] []
      [(0x2008, 0x0), (0x2009, 0x0), (0x200a, 0x0), (0x200b, 0x0), (0x200c, 0x0), (0x200d, 0x0), (0x200e, 0x0), (0x200f, 0x0)])).map (fun t => t.mem.readBytes [0x2008, 0x2009, 0x200a, 0x200b, 0x200c, 0x200d, 0x200e, 0x200f]) = some [0x8, 0x7, 0x6, 0x5, 0x4, 0x3, 0x2, 0x1] := by
  decide +kernel

/-- `96_execution_vectors.md` VW6. -/
theorem test_sd_traps :
    (after (at64 0x0020b223 [(1, 0x2000), (2, 0x1)] [] [])).map (·.run)
      = some (.stopped ⟨.storeAMOAddressMisaligned, 0x2004⟩) := by
  decide +kernel

/-- `96_execution_vectors.md` VW7. -/
theorem test_slli64_runs :
    (after (at64 0x03f09193 [(1, 0x3)] [] [])).map (fun t => readX 64 t ⟨3⟩) = some 0x8000000000000000 := by
  decide +kernel

/-- `96_execution_vectors.md` VW8. -/
theorem test_srli64_runs :
    (after (at64 0x0200d193 [(1, 0xffffffff00000000)] [] [])).map (fun t => readX 64 t ⟨3⟩) = some 0xffffffff := by
  decide +kernel

/-- `96_execution_vectors.md` VW9. -/
theorem test_srai64_runs :
    (after (at64 0x43f0d193 [(1, 0x8000000000000000)] [] [])).map (fun t => readX 64 t ⟨3⟩)
      = some 0xffffffffffffffff := by
  decide +kernel

/-- `96_execution_vectors.md` VW11. -/
theorem test_addiw_runs :
    (after (at64 0x0010819b [(1, 0x7fffffff)] [] [])).map (fun t => readX 64 t ⟨3⟩) = some 0xffffffff80000000 := by
  decide +kernel

/-- `96_execution_vectors.md` VW14. -/
theorem test_slliw_runs :
    (after (at64 0x01f0919b [(1, 0xffffffff00000001)] [] [])).map (fun t => readX 64 t ⟨3⟩)
      = some 0xffffffff80000000 := by
  decide +kernel

/-- `96_execution_vectors.md` VW15. -/
theorem test_srliw_runs :
    (after (at64 0x0040d19b [(1, 0xffffffff80000000)] [] [])).map (fun t => readX 64 t ⟨3⟩) = some 0x8000000 := by
  decide +kernel

/-- `96_execution_vectors.md` VW17. -/
theorem test_sraiw_runs :
    (after (at64 0x4040d19b [(1, 0x80000000)] [] [])).map (fun t => readX 64 t ⟨3⟩) = some 0xfffffffff8000000 := by
  decide +kernel

/-- `96_execution_vectors.md` VW18. -/
theorem test_addw_runs :
    (after (at64 0x002081bb [(1, 0x7fffffff), (2, 0x100000001)] [] [])).map (fun t => readX 64 t ⟨3⟩)
      = some 0xffffffff80000000 := by
  decide +kernel

/-- `96_execution_vectors.md` VW19. -/
theorem test_subw_runs :
    (after (at64 0x402081bb [(1, 0x0), (2, 0x1)] [] [])).map (fun t => readX 64 t ⟨3⟩) = some 0xffffffffffffffff := by
  decide +kernel

/-- `96_execution_vectors.md` VW21. -/
theorem test_sllw_runs :
    (after (at64 0x002091bb [(1, 0x1), (2, 0x20)] [] [])).map (fun t => readX 64 t ⟨3⟩) = some 0x1 := by
  decide +kernel

/-- `96_execution_vectors.md` VW23. -/
theorem test_srlw_runs :
    (after (at64 0x0020d1bb [(1, 0xabcdef0180000000), (2, 0x1f)] [] [])).map (fun t => readX 64 t ⟨3⟩)
      = some 0x1 := by
  decide +kernel

/-- `96_execution_vectors.md` VW24. -/
theorem test_sraw_runs :
    (after (at64 0x4020d1bb [(1, 0xabcdef0180000000), (2, 0x1f)] [] [])).map (fun t => readX 64 t ⟨3⟩)
      = some 0xffffffffffffffff := by
  decide +kernel

/-- `96_execution_vectors.md` VM1. -/
theorem test_mul_runs :
    (after (at32 0x022081b3 [(1, 0x10000), (2, 0x10000)] [] [])).map (fun t => readX 64 t ⟨3⟩) = some 0x0 := by
  decide +kernel

/-- `96_execution_vectors.md` VM4. -/
theorem test_mulh_runs :
    (after (at32 0x022091b3 [(1, 0xffffffff), (2, 0xffffffff)] [] [])).map (fun t => readX 64 t ⟨3⟩) = some 0x0 := by
  decide +kernel

/-- `96_execution_vectors.md` VM7. -/
theorem test_mulhsu_runs :
    (after (at32 0x0220a1b3 [(1, 0xffffffff), (2, 0xffffffff)] [] [])).map (fun t => readX 64 t ⟨3⟩)
      = some 0xffffffff := by
  decide +kernel

/-- `96_execution_vectors.md` VM9. -/
theorem test_mulhu_runs :
    (after (at32 0x0220b1b3 [(1, 0xffffffff), (2, 0xffffffff)] [] [])).map (fun t => readX 64 t ⟨3⟩)
      = some 0xfffffffe := by
  decide +kernel

/-- `96_execution_vectors.md` VM12. -/
theorem test_div_runs :
    (after (at32 0x0220c1b3 [(1, 0xfffffff9), (2, 0x2)] [] [])).map (fun t => readX 64 t ⟨3⟩) = some 0xfffffffd := by
  decide +kernel

/-- `96_execution_vectors.md` VM18. -/
theorem test_divu_runs :
    (after (at32 0x0220d1b3 [(1, 0xfffffff9), (2, 0x2)] [] [])).map (fun t => readX 64 t ⟨3⟩) = some 0x7ffffffc := by
  decide +kernel

/-- `96_execution_vectors.md` VM20. -/
theorem test_rem_runs :
    (after (at32 0x0220e1b3 [(1, 0xfffffff9), (2, 0x2)] [] [])).map (fun t => readX 64 t ⟨3⟩) = some 0xffffffff := by
  decide +kernel

/-- `96_execution_vectors.md` VM24. -/
theorem test_remu_runs :
    (after (at32 0x0220f1b3 [(1, 0xfffffff9), (2, 0x2)] [] [])).map (fun t => readX 64 t ⟨3⟩) = some 0x1 := by
  decide +kernel

/-- `96_execution_vectors.md` VM26. -/
theorem test_mulw_runs :
    (after (at64 0x022081bb [(1, 0x1234567800010000), (2, 0x8000)] [] [])).map (fun t => readX 64 t ⟨3⟩)
      = some 0xffffffff80000000 := by
  decide +kernel

/-- `96_execution_vectors.md` VM28. -/
theorem test_divw_runs :
    (after (at64 0x0220c1bb [(1, 0x80000000), (2, 0xffffffff)] [] [])).map (fun t => readX 64 t ⟨3⟩)
      = some 0xffffffff80000000 := by
  decide +kernel

/-- `96_execution_vectors.md` VM31. -/
theorem test_divuw_runs :
    (after (at64 0x0220d1bb [(1, 0xffffffff), (2, 0x1)] [] [])).map (fun t => readX 64 t ⟨3⟩)
      = some 0xffffffffffffffff := by
  decide +kernel

/-- `96_execution_vectors.md` VM33. -/
theorem test_remw_runs :
    (after (at64 0x0220e1bb [(1, 0xfffffff9), (2, 0x2)] [] [])).map (fun t => readX 64 t ⟨3⟩)
      = some 0xffffffffffffffff := by
  decide +kernel

/-- `96_execution_vectors.md` VM35. -/
theorem test_remuw_runs :
    (after (at64 0x0220f1bb [(1, 0xffffffff), (2, 0x0)] [] [])).map (fun t => readX 64 t ⟨3⟩)
      = some 0xffffffffffffffff := by
  decide +kernel

/-- `96_execution_vectors.md` VA1. -/
theorem test_lrW_runs :
    (after (at32 0x1000a1af [(1, 0x2000)] []
      [(0x2000, 0x5), (0x2001, 0x0), (0x2002, 0x0), (0x2003, 0x80)])).map (fun t => readX 64 t ⟨3⟩) = some 0x80000005 := by
  decide +kernel

/-- `96_execution_vectors.md` VA7. -/
theorem test_lrW_traps :
    (after (at32 0x1000a1af [(1, 0x2001), (3, 0x77)] []
      [(0x2000, 0x5), (0x2001, 0x0), (0x2002, 0x0), (0x2003, 0x80)])).map (·.run) = some (.stopped ⟨.loadAddressMisaligned, 0x2001⟩) := by
  decide +kernel

/-- `96_execution_vectors.md` VA3. -/
theorem test_scW_runs :
    (after (at32 0x1820a1af [(1, 0x2000), (2, 0x11), (3, 0x77)] []
      [(0x2000, 0x5), (0x2001, 0x0), (0x2002, 0x0), (0x2003, 0x80)])).map (fun t => readX 64 t ⟨3⟩) = some 0x1 := by
  decide +kernel

/-- `96_execution_vectors.md` VA6. -/
theorem test_scW_traps :
    (after { (at32 0x1820a1af [(1, 0x2002), (2, 0x11), (3, 0x77)] []
      [(0x2000, 0x5), (0x2001, 0x0), (0x2002, 0x0), (0x2003, 0x80)]) with reservation := some ⟨0x2000, 64⟩ }).map (·.run) = some (.stopped ⟨.storeAMOAddressMisaligned, 0x2002⟩) := by
  decide +kernel

/-- `96_execution_vectors.md` VA8. -/
theorem test_amoswapW_runs :
    (after (at32 0x0820a1af [(1, 0x2000), (2, 0x11223344)] []
      [(0x2000, 0x5), (0x2001, 0x0), (0x2002, 0x0), (0x2003, 0x80)])).map (fun t => (readX 64 t ⟨3⟩, t.mem.readBytes [0x2000, 0x2001, 0x2002, 0x2003])) = some (0x80000005, [0x44, 0x33, 0x22, 0x11]) := by
  decide +kernel

/-- `96_execution_vectors.md` VA10. -/
theorem test_amoaddW_runs :
    (after (at32 0x0020a1af [(1, 0x2000), (2, 0x80000000)] []
      [(0x2000, 0x5), (0x2001, 0x0), (0x2002, 0x0), (0x2003, 0x80)])).map (fun t => (readX 64 t ⟨3⟩, t.mem.readBytes [0x2003])) = some (0x80000005, [0x0]) := by
  decide +kernel

/-- `96_execution_vectors.md` VA14. -/
theorem test_amoxorW_runs :
    (after (at32 0x2020a1af [(1, 0x2000), (2, 0xffffffff)] []
      [(0x2000, 0x5), (0x2001, 0x0), (0x2002, 0x0), (0x2003, 0x80)])).map (fun t => (readX 64 t ⟨3⟩, t.mem.readBytes [0x2000, 0x2001, 0x2002, 0x2003])) = some (0x80000005, [0xfa, 0xff, 0xff, 0x7f]) := by
  decide +kernel

/-- `96_execution_vectors.md` VA15. -/
theorem test_amoorW_runs :
    (after (at32 0x4020a1af [(1, 0x2000), (2, 0xf00)] []
      [(0x2000, 0x5), (0x2001, 0x0), (0x2002, 0x0), (0x2003, 0x80)])).map (fun t => (readX 64 t ⟨3⟩, t.mem.readBytes [0x2001])) = some (0x80000005, [0xf]) := by
  decide +kernel

/-- `96_execution_vectors.md` VA22. -/
theorem test_amoorW_traps :
    (after (at32 0x4020a1af [(1, 0x2002), (2, 0x1), (3, 0x77)] []
      [(0x2000, 0x5), (0x2001, 0x0), (0x2002, 0x0), (0x2003, 0x80)])).map (·.run) = some (.stopped ⟨.storeAMOAddressMisaligned, 0x2002⟩) := by
  decide +kernel

/-- `96_execution_vectors.md` VA16. -/
theorem test_amoandW_runs :
    (after (at32 0x6020a1af [(1, 0x2000), (2, 0xf)] []
      [(0x2000, 0x5), (0x2001, 0x0), (0x2002, 0x0), (0x2003, 0x80)])).map (fun t => (readX 64 t ⟨3⟩, t.mem.readBytes [0x2003])) = some (0x80000005, [0x0]) := by
  decide +kernel

/-- `96_execution_vectors.md` VA17. -/
theorem test_amominW_runs :
    (after (at32 0x8020a1af [(1, 0x2000), (2, 0x1)] []
      [(0x2000, 0x5), (0x2001, 0x0), (0x2002, 0x0), (0x2003, 0x80)])).map (fun t => readX 64 t ⟨3⟩) = some 0x80000005 := by
  decide +kernel

/-- `96_execution_vectors.md` VA18. -/
theorem test_amomaxW_runs :
    (after (at32 0xa020a1af [(1, 0x2000), (2, 0x1)] []
      [(0x2000, 0x5), (0x2001, 0x0), (0x2002, 0x0), (0x2003, 0x80)])).map (fun t => (readX 64 t ⟨3⟩, t.mem.readBytes [0x2000, 0x2003])) = some (0x80000005, [0x1, 0x0]) := by
  decide +kernel

/-- `96_execution_vectors.md` VA19. -/
theorem test_amominuW_runs :
    (after (at32 0xc020a1af [(1, 0x2000), (2, 0x1)] []
      [(0x2000, 0x5), (0x2001, 0x0), (0x2002, 0x0), (0x2003, 0x80)])).map (fun t => (readX 64 t ⟨3⟩, t.mem.readBytes [0x2000, 0x2003])) = some (0x80000005, [0x1, 0x0]) := by
  decide +kernel

/-- `96_execution_vectors.md` VA20. -/
theorem test_amomaxuW_runs :
    (after (at32 0xe020a1af [(1, 0x2000), (2, 0x1)] []
      [(0x2000, 0x5), (0x2001, 0x0), (0x2002, 0x0), (0x2003, 0x80)])).map (fun t => readX 64 t ⟨3⟩) = some 0x80000005 := by
  decide +kernel

/-- `96_execution_vectors.md` VA24. -/
theorem test_lrD_runs :
    (after (at64 0x1000b1af [(1, 0x2000)] []
      [(0x2000, 0x5), (0x2001, 0x0), (0x2002, 0x0), (0x2003, 0x0), (0x2004, 0x0), (0x2005, 0x0), (0x2006, 0x0), (0x2007, 0x80)])).map (fun t => readX 64 t ⟨3⟩) = some 0x8000000000000005 := by
  decide +kernel

/-- `96_execution_vectors.md` VA25. -/
theorem test_lrD_traps :
    (after (at64 0x1000b1af [(1, 0x2004), (3, 0x77)] []
      [(0x2000, 0x5), (0x2001, 0x0), (0x2002, 0x0), (0x2003, 0x0), (0x2004, 0x0), (0x2005, 0x0), (0x2006, 0x0), (0x2007, 0x80)])).map (·.run) = some (.stopped ⟨.loadAddressMisaligned, 0x2004⟩) := by
  decide +kernel

/-- `96_execution_vectors.md` VA26. -/
theorem test_scD_runs :
    (after { (at64 0x1820b1af [(1, 0x2000), (2, 0x102030405060708), (3, 0x77)] []
      [(0x2000, 0x5), (0x2001, 0x0), (0x2002, 0x0), (0x2003, 0x0), (0x2004, 0x0), (0x2005, 0x0), (0x2006, 0x0), (0x2007, 0x80)]) with reservation := some ⟨0x2000, 64⟩ }).map (fun t => (readX 64 t ⟨3⟩, t.mem.readBytes [0x2000, 0x2001, 0x2002, 0x2003, 0x2004, 0x2005, 0x2006, 0x2007])) = some (0x0, [0x8, 0x7, 0x6, 0x5, 0x4, 0x3, 0x2, 0x1]) := by
  decide +kernel

/-- `96_execution_vectors.md` VA28. -/
theorem test_amoswapD_runs :
    (after (at64 0x0820b1af [(1, 0x2000), (2, 0x102030405060708)] []
      [(0x2000, 0x5), (0x2001, 0x0), (0x2002, 0x0), (0x2003, 0x0), (0x2004, 0x0), (0x2005, 0x0), (0x2006, 0x0), (0x2007, 0x80)])).map (fun t => (readX 64 t ⟨3⟩, t.mem.readBytes [0x2000, 0x2001, 0x2002, 0x2003, 0x2004, 0x2005, 0x2006, 0x2007])) = some (0x8000000000000005, [0x8, 0x7, 0x6, 0x5, 0x4, 0x3, 0x2, 0x1]) := by
  decide +kernel

/-- `96_execution_vectors.md` VA29. -/
theorem test_amoaddD_runs :
    (after (at64 0x0020b1af [(1, 0x2000), (2, 0x8000000000000000)] []
      [(0x2000, 0x5), (0x2001, 0x0), (0x2002, 0x0), (0x2003, 0x0), (0x2004, 0x0), (0x2005, 0x0), (0x2006, 0x0), (0x2007, 0x80)])).map (fun t => (readX 64 t ⟨3⟩, t.mem.readBytes [0x2007])) = some (0x8000000000000005, [0x0]) := by
  decide +kernel

/-- `96_execution_vectors.md` VA37. -/
theorem test_amoaddD_traps :
    (after (at64 0x0020b1af [(1, 0x2004), (2, 0x1), (3, 0x77)] []
      [(0x2000, 0x5), (0x2001, 0x0), (0x2002, 0x0), (0x2003, 0x0), (0x2004, 0x0), (0x2005, 0x0), (0x2006, 0x0), (0x2007, 0x80)])).map (·.run) = some (.stopped ⟨.storeAMOAddressMisaligned, 0x2004⟩) := by
  decide +kernel

/-- `96_execution_vectors.md` VA30. -/
theorem test_amoxorD_runs :
    (after (at64 0x2020b1af [(1, 0x2000), (2, 0xffffffffffffffff)] []
      [(0x2000, 0x5), (0x2001, 0x0), (0x2002, 0x0), (0x2003, 0x0), (0x2004, 0x0), (0x2005, 0x0), (0x2006, 0x0), (0x2007, 0x80)])).map (fun t => (readX 64 t ⟨3⟩, t.mem.readBytes [0x2000, 0x2001, 0x2002, 0x2003, 0x2004, 0x2005, 0x2006, 0x2007])) = some (0x8000000000000005, [0xfa, 0xff, 0xff, 0xff, 0xff, 0xff, 0xff, 0x7f]) := by
  decide +kernel

/-- `96_execution_vectors.md` VA31. -/
theorem test_amoorD_runs :
    (after (at64 0x4020b1af [(1, 0x2000), (2, 0xf0)] []
      [(0x2000, 0x5), (0x2001, 0x0), (0x2002, 0x0), (0x2003, 0x0), (0x2004, 0x0), (0x2005, 0x0), (0x2006, 0x0), (0x2007, 0x80)])).map (fun t => (readX 64 t ⟨3⟩, t.mem.readBytes [0x2000])) = some (0x8000000000000005, [0xf5]) := by
  decide +kernel

/-- `96_execution_vectors.md` VA32. -/
theorem test_amoandD_runs :
    (after (at64 0x6020b1af [(1, 0x2000), (2, 0xf)] []
      [(0x2000, 0x5), (0x2001, 0x0), (0x2002, 0x0), (0x2003, 0x0), (0x2004, 0x0), (0x2005, 0x0), (0x2006, 0x0), (0x2007, 0x80)])).map (fun t => (readX 64 t ⟨3⟩, t.mem.readBytes [0x2007])) = some (0x8000000000000005, [0x0]) := by
  decide +kernel

/-- `96_execution_vectors.md` VA33. -/
theorem test_amominD_runs :
    (after (at64 0x8020b1af [(1, 0x2000), (2, 0x1)] []
      [(0x2000, 0x5), (0x2001, 0x0), (0x2002, 0x0), (0x2003, 0x0), (0x2004, 0x0), (0x2005, 0x0), (0x2006, 0x0), (0x2007, 0x80)])).map (fun t => readX 64 t ⟨3⟩) = some 0x8000000000000005 := by
  decide +kernel

/-- `96_execution_vectors.md` VA34. -/
theorem test_amomaxD_runs :
    (after (at64 0xa020b1af [(1, 0x2000), (2, 0x1)] []
      [(0x2000, 0x5), (0x2001, 0x0), (0x2002, 0x0), (0x2003, 0x0), (0x2004, 0x0), (0x2005, 0x0), (0x2006, 0x0), (0x2007, 0x80)])).map (fun t => (readX 64 t ⟨3⟩, t.mem.readBytes [0x2000, 0x2007])) = some (0x8000000000000005, [0x1, 0x0]) := by
  decide +kernel

/-- `96_execution_vectors.md` VA35. -/
theorem test_amominuD_runs :
    (after (at64 0xc020b1af [(1, 0x2000), (2, 0x1)] []
      [(0x2000, 0x5), (0x2001, 0x0), (0x2002, 0x0), (0x2003, 0x0), (0x2004, 0x0), (0x2005, 0x0), (0x2006, 0x0), (0x2007, 0x80)])).map (fun t => (readX 64 t ⟨3⟩, t.mem.readBytes [0x2000, 0x2007])) = some (0x8000000000000005, [0x1, 0x0]) := by
  decide +kernel

/-- `96_execution_vectors.md` VA36. -/
theorem test_amomaxuD_runs :
    (after (at64 0xe020b1af [(1, 0x2000), (2, 0x1)] []
      [(0x2000, 0x5), (0x2001, 0x0), (0x2002, 0x0), (0x2003, 0x0), (0x2004, 0x0), (0x2005, 0x0), (0x2006, 0x0), (0x2007, 0x80)])).map (fun t => readX 64 t ⟨3⟩) = some 0x8000000000000005 := by
  decide +kernel

/-- `96_execution_vectors.md` VF1. -/
theorem test_flw_runs :
    (after (at64 0x0040a187 [(1, 0x2000)] [(3, 0x0)] [(0x2004, 0x0), (0x2005, 0x0), (0x2006, 0x80), (0x2007, 0x3f)])).map (fun t => readF t ⟨3⟩) = some 0xffffffff3f800000 := by
  decide +kernel

/-- `96_execution_vectors.md` VF2. -/
theorem test_flw_traps :
    (after (at32 0x0020a187 [(1, 0x2000)] [(3, 0x1234)] [])).map (·.run)
      = some (.stopped ⟨.loadAddressMisaligned, 0x2002⟩) := by
  decide +kernel

/-- `96_execution_vectors.md` VF3. -/
theorem test_fsw_runs :
    (after (at64 0x0020a027 [(1, 0x2000)] [(2, 0x123456783f800000)] [(0x2000, 0x0), (0x2001, 0x0), (0x2002, 0x0), (0x2003, 0x0), (0x2004, 0x0), (0x2005, 0x0), (0x2006, 0x0), (0x2007, 0x0)])).map (fun t => t.mem.readBytes [0x2002, 0x2003]) = some [0x80, 0x3f] := by
  decide +kernel

/-- `96_execution_vectors.md` VF39. -/
theorem test_fmaddS_runs :
    (after (at64 0x202081c3 [] [(1, 0xffffffff7f800000), (2, 0xffffffff00000000), (4, 0xffffffff7fc00000)] [])).map (fun t => (readF t ⟨3⟩, t.fcsr)) = some (0xffffffff7fc00000, 0x10) := by
  decide +kernel

/-- `96_execution_vectors.md` VF34. -/
theorem test_fmsubS_runs :
    (after (at64 0x202081c7 [] [(1, 0xffffffff40000000), (2, 0xffffffff40400000), (4, 0xffffffff3f800000)] [])).map (fun t => readF t ⟨3⟩) = some 0xffffffff40a00000 := by
  decide +kernel

/-- `96_execution_vectors.md` VF35. -/
theorem test_fnmsubS_runs :
    (after (at64 0x202081cb [] [(1, 0xffffffff40000000), (2, 0xffffffff40400000), (4, 0xffffffff3f800000)] [])).map (fun t => readF t ⟨3⟩) = some 0xffffffffc0a00000 := by
  decide +kernel

/-- `96_execution_vectors.md` VF36. -/
theorem test_fnmaddS_runs :
    (after (at64 0x202081cf [] [(1, 0xffffffff40000000), (2, 0xffffffff40400000), (4, 0xffffffff3f800000)] [])).map (fun t => readF t ⟨3⟩) = some 0xffffffffc0e00000 := by
  decide +kernel

/-- `96_execution_vectors.md` VF4. -/
theorem test_faddS_runs :
    (after (at64 0x002081d3 [] [(1, 0xffffffff3f800000), (2, 0xffffffff33800000)] [])).map
      (fun t => (readF t ⟨3⟩, t.fcsr)) = some (0xffffffff3f800000, 0x1) := by
  decide +kernel

/-- `96_execution_vectors.md` VF16. -/
theorem test_fsubS_runs :
    (after (at64 0x0820f1d3 [] [(1, 0xffffffff7f800001), (2, 0xffffffff3f800000)] [])).map
      (fun t => (readF t ⟨3⟩, t.fcsr)) = some (0xffffffff7fc00000, 0x10) := by
  decide +kernel

/-- `96_execution_vectors.md` VF18. -/
theorem test_fmulS_runs :
    (after (at64 0x102081d3 [] [(1, 0xffffffff00800001), (2, 0xffffffff3f000000)] [])).map
      (fun t => (readF t ⟨3⟩, t.fcsr)) = some (0xffffffff00400000, 0x3) := by
  decide +kernel

/-- `96_execution_vectors.md` VF23. -/
theorem test_fdivS_runs :
    (after (at64 0x182081d3 [] [(1, 0xffffffff3f800000), (2, 0xffffffff40400000)] [])).map
      (fun t => (readF t ⟨3⟩, t.fcsr)) = some (0xffffffff3eaaaaab, 0x1) := by
  decide +kernel

/-- `96_execution_vectors.md` VF114. -/
theorem test_fdivS_traps :
    (after { (at64 0x1820f1d3 [] [(1, 0xffffffff3f800000), (2, 0xffffffff40400000), (3, 0x55)] []) with fcsr := 0xa0 }).map (·.run) = some (.stopped ⟨.illegalInstruction, 0x1820f1d3⟩) := by
  decide +kernel

/-- `96_execution_vectors.md` VF41. -/
theorem test_fsgnjS_runs :
    (after (at64 0x202081d3 [] [(1, 0xffffffff7fc12345), (2, 0xffffffff80000000)] [])).map
      (fun t => readF t ⟨3⟩) = some 0xffffffffffc12345 := by
  decide +kernel

/-- `96_execution_vectors.md` VF42. -/
theorem test_fsgnjnS_runs :
    (after (at64 0x201091d3 [] [(1, 0xffffffff7f800001)] [])).map (fun t => readF t ⟨3⟩)
      = some 0xffffffffff800001 := by
  decide +kernel

/-- `96_execution_vectors.md` VF43. -/
theorem test_fsgnjxS_runs :
    (after (at64 0x2010a1d3 [] [(1, 0xffffffffc0490fdb)] [])).map (fun t => readF t ⟨3⟩)
      = some 0xffffffff40490fdb := by
  decide +kernel

/-- `96_execution_vectors.md` VF47. -/
theorem test_fminS_runs :
    (after (at64 0x282081d3 [] [(1, 0xffffffff7f800001), (2, 0xffffffff3f800000)] [])).map
      (fun t => (readF t ⟨3⟩, t.fcsr)) = some (0xffffffff3f800000, 0x10) := by
  decide +kernel

/-- `96_execution_vectors.md` VF46. -/
theorem test_fmaxS_runs :
    (after (at64 0x282091d3 [] [(1, 0xffffffff80000000), (2, 0xffffffff00000000)] [])).map
      (fun t => readF t ⟨3⟩) = some 0xffffffff00000000 := by
  decide +kernel

/-- `96_execution_vectors.md` VF29. -/
theorem test_fsqrtS_runs :
    (after (at64 0x580081d3 [] [(1, 0xffffffff40400000)] [])).map (fun t => (readF t ⟨3⟩, t.fcsr))
      = some (0xffffffff3fddb3d7, 0x1) := by
  decide +kernel

/-- `96_execution_vectors.md` VF55. -/
theorem test_fleS_runs :
    (after (at64 0xa02081d3 [(3, 0x77)] [(1, 0xffffffff7fc00000), (2, 0xffffffff3f800000)] [])).map
      (fun t => (readX 64 t ⟨3⟩, t.fcsr)) = some (0x0, 0x10) := by
  decide +kernel

/-- `96_execution_vectors.md` VF52. -/
theorem test_fltS_runs :
    (after (at64 0xa02091d3 [] [(1, 0xffffffff80000000), (2, 0xffffffff00000000)] [])).map
      (fun t => readX 64 t ⟨3⟩) = some 0x0 := by
  decide +kernel

/-- `96_execution_vectors.md` VF57. -/
theorem test_feqS_runs :
    (after (at64 0xa020a1d3 [(3, 0x77)] [(1, 0xffffffff7f800001), (2, 0xffffffff3f800000)] [])).map
      (fun t => (readX 64 t ⟨3⟩, t.fcsr)) = some (0x0, 0x10) := by
  decide +kernel

/-- `96_execution_vectors.md` VF58. -/
theorem test_fcvtWS_runs :
    (after (at32 0xc00081d3 [] [(1, 0xffffffff3fc00000)] [])).map (fun t => (readX 64 t ⟨3⟩, t.fcsr))
      = some (0x2, 0x1) := by
  decide +kernel

/-- `96_execution_vectors.md` VF69. -/
theorem test_fcvtWuS_runs :
    (after (at32 0xc01091d3 [] [(1, 0xffffffffbf000000)] [])).map (fun t => (readX 64 t ⟨3⟩, t.fcsr))
      = some (0x0, 0x1) := by
  decide +kernel

/-- `96_execution_vectors.md` VF74. -/
theorem test_fcvtSW_runs :
    (after (at32 0xd00081d3 [(1, 0x7fffffff)] [] [])).map (fun t => (readF t ⟨3⟩, t.fcsr))
      = some (0xffffffff4f000000, 0x1) := by
  decide +kernel

/-- `96_execution_vectors.md` VF78. -/
theorem test_fcvtSWu_runs :
    (after (at32 0xd01081d3 [(1, 0xffffffff)] [] [])).map (fun t => (readF t ⟨3⟩, t.fcsr))
      = some (0xffffffff4f800000, 0x1) := by
  decide +kernel

/-- `96_execution_vectors.md` VF80. -/
theorem test_fmvXS_runs :
    (after (at64 0xe00081d3 [] [(1, 0xc0000000)] [])).map (fun t => readX 64 t ⟨3⟩) = some 0xffffffffc0000000 := by
  decide +kernel

/-- `96_execution_vectors.md` VF83. -/
theorem test_fclassS_runs :
    (after (at64 0xe00091d3 [] [(1, 0xffffffffff800000)] [])).map (fun t => readX 64 t ⟨3⟩) = some 0x1 := by
  decide +kernel

/-- `96_execution_vectors.md` VF82. -/
theorem test_fmvSX_runs :
    (after (at64 0xf00081d3 [(1, 0x123456783f800000)] [] [])).map (fun t => readF t ⟨3⟩)
      = some 0xffffffff3f800000 := by
  decide +kernel

/-- `96_execution_vectors.md` VF102. -/
theorem test_frcsr_runs :
    (after { (at64 0x003021f3 [] [] []) with fcsr := 0x75 }).map (fun t => readX 64 t ⟨3⟩) = some 0x75 := by
  decide +kernel

/-- `96_execution_vectors.md` VF103. -/
theorem test_frrm_runs :
    (after { (at64 0x002021f3 [] [] []) with fcsr := 0x75 }).map (fun t => readX 64 t ⟨3⟩) = some 0x3 := by
  decide +kernel

/-- `96_execution_vectors.md` VF104. -/
theorem test_frflags_runs :
    (after { (at64 0x001021f3 [] [] []) with fcsr := 0x75 }).map (fun t => readX 64 t ⟨3⟩) = some 0x15 := by
  decide +kernel

/-- `96_execution_vectors.md` VF105. -/
theorem test_fscsr_runs :
    (after { (at64 0x003091f3 [(1, 0xffffffffffffff21)] [] []) with fcsr := 0x75 }).map
      (fun t => (readX 64 t ⟨3⟩, t.fcsr)) = some (0x75, 0x21) := by
  decide +kernel

/-- `96_execution_vectors.md` VF106. -/
theorem test_fsrm_runs :
    (after { (at64 0x002091f3 [(1, 0xfe)] [] []) with fcsr := 0x75 }).map (fun t => (readX 64 t ⟨3⟩, t.fcsr))
      = some (0x3, 0xd5) := by
  decide +kernel

/-- `96_execution_vectors.md` VF107. -/
theorem test_fsflags_runs :
    (after { (at64 0x001091f3 [(1, 0xe0)] [] []) with fcsr := 0x75 }).map (fun t => (readX 64 t ⟨3⟩, t.fcsr))
      = some (0x15, 0x60) := by
  decide +kernel

/-- `96_execution_vectors.md` VF108. -/
theorem test_fsrmi_runs :
    (after { (at64 0x0020d1f3 [] [] []) with fcsr := 0x75 }).map (fun t => (readX 64 t ⟨3⟩, t.fcsr))
      = some (0x3, 0x35) := by
  decide +kernel

/-- `96_execution_vectors.md` VF110. -/
theorem test_fsflagsi_runs :
    (after { (at64 0x001051f3 [] [] []) with fcsr := 0x75 }).map (fun t => (readX 64 t ⟨3⟩, t.fcsr))
      = some (0x15, 0x60) := by
  decide +kernel

/-- `96_execution_vectors.md` VF95. -/
theorem test_fcvtLS_runs :
    (after (at64 0xc02091d3 [] [(1, 0xffffffff5f000000)] [])).map (fun t => (readX 64 t ⟨3⟩, t.fcsr))
      = some (0x7fffffffffffffff, 0x10) := by
  decide +kernel

/-- `96_execution_vectors.md` VF97. -/
theorem test_fcvtLuS_runs :
    (after (at64 0xc03081d3 [] [(1, 0xffffffff7fc00000)] [])).map (fun t => (readX 64 t ⟨3⟩, t.fcsr))
      = some (0xffffffffffffffff, 0x10) := by
  decide +kernel

/-- `96_execution_vectors.md` VF98. -/
theorem test_fcvtSL_runs :
    (after (at64 0xd02081d3 [(1, 0x7fffffffffffffff)] [] [])).map (fun t => (readF t ⟨3⟩, t.fcsr))
      = some (0xffffffff5f000000, 0x1) := by
  decide +kernel

/-- `96_execution_vectors.md` VF100. -/
theorem test_fcvtSLu_runs :
    (after (at64 0xd03081d3 [(1, 0xffffffffffffffff)] [] [])).map (fun t => (readF t ⟨3⟩, t.fcsr))
      = some (0xffffffff5f800000, 0x1) := by
  decide +kernel

/-- `96_execution_vectors.md` VD1. -/
theorem test_fld_runs :
    (after (at32 0x0080b187 [(1, 0x2000)] []
      [(0x2008, 0x18), (0x2009, 0x2d), (0x200a, 0x44), (0x200b, 0x54), (0x200c, 0xfb), (0x200d, 0x21), (0x200e, 0x9), (0x200f, 0x40)])).map (fun t => readF t ⟨3⟩) = some 0x400921fb54442d18 := by
  decide +kernel

/-- `96_execution_vectors.md` VD2. -/
theorem test_fld_traps :
    (after (at32 0x0040b187 [(1, 0x2000)] [(3, 0x55)] [])).map (·.run)
      = some (.stopped ⟨.loadAddressMisaligned, 0x2004⟩) := by
  decide +kernel

/-- `96_execution_vectors.md` VD3. -/
theorem test_fsd_runs :
    (after (at64 0xfe20bc27 [(1, 0x2008)] [(2, 0xffffffff3f800000)] [(0x2000, 0x0), (0x2001, 0x0), (0x2002, 0x0), (0x2003, 0x0), (0x2004, 0x0), (0x2005, 0x0), (0x2006, 0x0), (0x2007, 0x0)])).map (fun t => t.mem.readBytes [0x2002, 0x2003, 0x2004, 0x2005, 0x2006, 0x2007]) = some [0x80, 0x3f, 0xff, 0xff, 0xff, 0xff] := by
  decide +kernel

/-- `96_execution_vectors.md` VD4. -/
theorem test_fsd_traps :
    (after (at32 0x0020b227 [(1, 0x2000)] [(2, 0x3ff0000000000000)] [])).map (·.run)
      = some (.stopped ⟨.storeAMOAddressMisaligned, 0x2004⟩) := by
  decide +kernel

/-- `96_execution_vectors.md` VD22. -/
theorem test_fmsubD_runs :
    (after (at64 0x222081c7 [] [(1, 0x4000000000000000), (2, 0x4008000000000000), (4, 0x3ff0000000000000)] [])).map (fun t => readF t ⟨3⟩) = some 0x4014000000000000 := by
  decide +kernel

/-- `96_execution_vectors.md` VD23. -/
theorem test_fnmsubD_runs :
    (after (at64 0x222081cb [] [(1, 0x4000000000000000), (2, 0x4008000000000000), (4, 0x3ff0000000000000)] [])).map (fun t => readF t ⟨3⟩) = some 0xc014000000000000 := by
  decide +kernel

/-- `96_execution_vectors.md` VD24. -/
theorem test_fnmaddD_runs :
    (after (at64 0x222081cf [] [(1, 0x4000000000000000), (2, 0x4008000000000000), (4, 0x3ff0000000000000)] [])).map (fun t => readF t ⟨3⟩) = some 0xc01c000000000000 := by
  decide +kernel

/-- `96_execution_vectors.md` VD5. -/
theorem test_faddD_runs :
    (after (at64 0x022081d3 [] [(1, 0x3ff0000000000000), (2, 0x3ca0000000000000)] [])).map
      (fun t => (readF t ⟨3⟩, t.fcsr)) = some (0x3ff0000000000000, 0x1) := by
  decide +kernel

/-- `96_execution_vectors.md` VD9. -/
theorem test_fsubD_runs :
    (after (at64 0x0a2081d3 [] [(1, 0x7ff0000000000000), (2, 0x7ff0000000000000)] [])).map
      (fun t => (readF t ⟨3⟩, t.fcsr)) = some (0x7ff8000000000000, 0x10) := by
  decide +kernel

/-- `96_execution_vectors.md` VD11. -/
theorem test_fmulD_runs :
    (after (at64 0x122081d3 [] [(1, 0x7fefffffffffffff), (2, 0x4000000000000000)] [])).map
      (fun t => (readF t ⟨3⟩, t.fcsr)) = some (0x7ff0000000000000, 0x5) := by
  decide +kernel

/-- `96_execution_vectors.md` VD15. -/
theorem test_fdivD_runs :
    (after (at64 0x1a2081d3 [] [(1, 0x3ff0000000000000), (2, 0x4008000000000000)] [])).map
      (fun t => (readF t ⟨3⟩, t.fcsr)) = some (0x3fd5555555555555, 0x1) := by
  decide +kernel

/-- `96_execution_vectors.md` VD25. -/
theorem test_fsgnjD_runs :
    (after (at64 0x222081d3 [] [(1, 0x3ff0000000000000), (2, 0x8000000000000000)] [])).map
      (fun t => readF t ⟨3⟩) = some 0xbff0000000000000 := by
  decide +kernel

/-- `96_execution_vectors.md` VD26. -/
theorem test_fsgnjnD_runs :
    (after (at64 0x221091d3 [] [(1, 0x7ff0000000000001)] [])).map (fun t => readF t ⟨3⟩)
      = some 0xfff0000000000001 := by
  decide +kernel

/-- `96_execution_vectors.md` VD27. -/
theorem test_fsgnjxD_runs :
    (after (at64 0x2210a1d3 [] [(1, 0xc00921fb54442d18)] [])).map (fun t => readF t ⟨3⟩)
      = some 0x400921fb54442d18 := by
  decide +kernel

/-- `96_execution_vectors.md` VD28. -/
theorem test_fminD_runs :
    (after (at64 0x2a2081d3 [] [(1, 0x0), (2, 0x8000000000000000)] [])).map (fun t => readF t ⟨3⟩)
      = some 0x8000000000000000 := by
  decide +kernel

/-- `96_execution_vectors.md` VD29. -/
theorem test_fmaxD_runs :
    (after (at64 0x2a2091d3 [] [(1, 0x7ff0000000000001), (2, 0x3ff0000000000000)] [])).map
      (fun t => (readF t ⟨3⟩, t.fcsr)) = some (0x3ff0000000000000, 0x10) := by
  decide +kernel

/-- `96_execution_vectors.md` VD19. -/
theorem test_fsqrtD_runs :
    (after (at64 0x5a0081d3 [] [(1, 0x4008000000000000)] [])).map (fun t => (readF t ⟨3⟩, t.fcsr))
      = some (0x3ffbb67ae8584caa, 0x1) := by
  decide +kernel

/-- `96_execution_vectors.md` VD31. -/
theorem test_fleD_runs :
    (after (at64 0xa22081d3 [] [(1, 0x8000000000000000), (2, 0x0)] [])).map (fun t => readX 64 t ⟨3⟩) = some 0x1 := by
  decide +kernel

/-- `96_execution_vectors.md` VD32. -/
theorem test_fltD_runs :
    (after (at64 0xa22091d3 [(3, 0x77)] [(1, 0x7ff8000000000000), (2, 0x3ff0000000000000)] [])).map
      (fun t => (readX 64 t ⟨3⟩, t.fcsr)) = some (0x0, 0x10) := by
  decide +kernel

/-- `96_execution_vectors.md` VD33. -/
theorem test_feqD_runs :
    (after (at64 0xa220a1d3 [(3, 0x77)] [(1, 0x7ff8000000000000), (2, 0x3ff0000000000000)] [])).map
      (fun t => readX 64 t ⟨3⟩) = some 0x0 := by
  decide +kernel

/-- `96_execution_vectors.md` VD36. -/
theorem test_fcvtWD_runs :
    (after (at32 0xc200b1d3 [] [(1, 0x41dfffffffc00001)] [])).map (fun t => (readX 64 t ⟨3⟩, t.fcsr))
      = some (0x7fffffff, 0x10) := by
  decide +kernel

/-- `96_execution_vectors.md` VD41. -/
theorem test_fcvtWuD_runs :
    (after (at32 0xc21081d3 [] [(1, 0xbfe0000000000000)] [])).map (fun t => (readX 64 t ⟨3⟩, t.fcsr))
      = some (0x0, 0x1) := by
  decide +kernel

/-- `96_execution_vectors.md` VD43. -/
theorem test_fcvtDW_runs :
    (after (at32 0xd20081d3 [(1, 0x80000000)] [] [])).map (fun t => readF t ⟨3⟩) = some 0xc1e0000000000000 := by
  decide +kernel

/-- `96_execution_vectors.md` VD46. -/
theorem test_fcvtDW_traps :
    (after { (at64 0xd200f1d3 [(1, 0x1)] [(3, 0x55)] []) with fcsr := 0xe0 }).map (·.run)
      = some (.stopped ⟨.illegalInstruction, 0xd200f1d3⟩) := by
  decide +kernel

/-- `96_execution_vectors.md` VD45. -/
theorem test_fcvtDWu_runs :
    (after (at32 0xd21081d3 [(1, 0x80000000)] [] [])).map (fun t => readF t ⟨3⟩) = some 0x41e0000000000000 := by
  decide +kernel

/-- `96_execution_vectors.md` VD47. -/
theorem test_fclassD_runs :
    (after (at64 0xe20091d3 [] [(1, 0xfff0000000000000)] [])).map (fun t => readX 64 t ⟨3⟩) = some 0x1 := by
  decide +kernel

/-- `96_execution_vectors.md` VD53. -/
theorem test_fcvtLD_runs :
    (after (at64 0xc22081d3 [] [(1, 0x43e0000000000000)] [])).map (fun t => (readX 64 t ⟨3⟩, t.fcsr))
      = some (0x7fffffffffffffff, 0x10) := by
  decide +kernel

/-- `96_execution_vectors.md` VD58. -/
theorem test_fcvtLuD_runs :
    (after (at64 0xc23081d3 [] [(1, 0x43f0000000000000)] [])).map (fun t => (readX 64 t ⟨3⟩, t.fcsr))
      = some (0xffffffffffffffff, 0x10) := by
  decide +kernel

/-- `96_execution_vectors.md` VD60. -/
theorem test_fcvtDL_runs :
    (after (at64 0xd22081d3 [(1, 0x7fffffffffffffff)] [] [])).map (fun t => (readF t ⟨3⟩, t.fcsr))
      = some (0x43e0000000000000, 0x1) := by
  decide +kernel

/-- `96_execution_vectors.md` VD64. -/
theorem test_fcvtDLu_runs :
    (after (at64 0xd23081d3 [(1, 0xffffffffffffffff)] [] [])).map (fun t => (readF t ⟨3⟩, t.fcsr))
      = some (0x43f0000000000000, 0x1) := by
  decide +kernel

/-- `96_execution_vectors.md` VD65. -/
theorem test_fmvXD_runs :
    (after (at64 0xe20081d3 [] [(1, 0x7ff0000000000001)] [])).map (fun t => readX 64 t ⟨3⟩)
      = some 0x7ff0000000000001 := by
  decide +kernel

/-- `96_execution_vectors.md` VD66. -/
theorem test_fmvDX_runs :
    (after (at64 0xf20081d3 [(1, 0xffffffff3f800000)] [] [])).map (fun t => readF t ⟨3⟩)
      = some 0xffffffff3f800000 := by
  decide +kernel

/-- `96_execution_vectors.md` VD21: fused, `(1 + 2^-25) * (1 - 2^-25) - 1`. -/
theorem test_fmaddD_runs :
    (after (at64 0x222081c3 [] [(1, 0x3ff0000008000000), (2, 0x3feffffff0000000), (4, 0xbff0000000000000)] [])).map
      (fun t => (readF t ⟨3⟩, t.fcsr)) = some (0xbcd0000000000000, 0) := by
  decide +kernel

/-! ### Witnesses: for each obligation with hypotheses, a state and operands that meet them

One theorem for each statement, one conjunct for each clause with hypotheses of its own, at a boundary value where the
clause has a range. -/

/-- A refused or read answer of the decoder, from its option. -/
theorem ok_of_toOption {ε α : Type} {r : Except ε α} {a : α} (h : r.toOption = some a) : r = .ok a := by
  cases r with
  | error e => simp [Except.toOption] at h
  | ok b => simp only [Except.toOption, Option.some.injEq] at h; rw [h]

/-- NOP at 0x1000; x1 at the top doubleword, x2 below zero, x3 misaligned. -/
def top (x : XLen) : State :=
  stateAt x 0x13 [(1, 2 ^ x.bits - 8), (2, 2 ^ x.bits - 1), (3, 0x2001), (4, 0x2000)] [(1, 0x3F800000)] []
/-- Only the 16 bytes from 0x1000 are valid, for fetches of instructions. -/
def narrow : State :=
  { top .rv64 with params := { params .rv64 with memMap := [⟨0x1000, 16, [.fetch], [4]⟩] } }
/-- SC may fail spuriously, with a reservation on the set at 0x2000. -/
def free : State :=
  { top .rv64 with params := Config.defaultParams, reservation := some ⟨0x2000, 64⟩ }

theorem witness_DecodeInvertsEncode : (Instr.jal ⟨31⟩ (-2)).wellFormed .rv32 = true ∧
    (Instr.fmvXD ⟨31⟩ ⟨31⟩).wellFormed .rv64 = true := by decide

theorem witness_EncodeInvertsDecode : decodeWord .rv32 0x0800100F = .ok .fenceI ∧
    decodeWord .rv64 0xFFF00F93 = .ok (.addi ⟨31⟩ ⟨0⟩ (-1)) :=
  ⟨ok_of_toOption (by decide +kernel), ok_of_toOption (by decide +kernel)⟩

theorem witness_ReservedWordsRefused :
    (field 0xFFFFFFFF 0 7).toNat ∉ [0x03, 0x07, 0x0F, 0x13, 0x17, 0x1B, 0x23, 0x27, 0x2F, 0x33, 0x37, 0x3B, 0x43,
      0x47, 0x4B, 0x4F, 0x53, 0x63, 0x67, 0x6F, 0x73] ∧ field 0x00000000 0 2 ≠ 3 ∧
    (decodeWord .rv64 0x0000B183 = .ok (.ld ⟨3⟩ ⟨1⟩ 0) ∧ (Instr.ld ⟨3⟩ ⟨1⟩ 0).wellFormed .rv32 = false) ∧
    (decodeWord .rv64 0x01F51513 = .ok (.slli64 ⟨10⟩ ⟨10⟩ 31) ∧
      (Instr.slli64 ⟨10⟩ ⟨10⟩ 31).wellFormed .rv32 = false) ∧
    (field 0x00100073 0 7 = 0x73 ∧ decodeWord .rv32 0x00100073 = .ok .ebreak) ∧
    (field 0x1010A12F 0 7 = 0x2F ∧ field 0x1010A12F 27 5 = 2 ∧ field 0x1010A12F 20 5 ≠ 0) ∧
    (field 0x40100053 0 7 = 0x53 ∧ field 0x40100053 25 7 = 0x20) ∧
    (field 0x42000053 0 7 = 0x53 ∧ field 0x42000053 25 7 = 0x21) ∧
    ([0x00001067, 0x00002063, 0x00007003, 0x00004023, 0x0000200F, 0x00004007, 0x00001027, 0x04001013, 0x44005013,
      0x0000201B, 0x0200101B, 0x20001033, 0x04000033, 0x0000203B, 0x0200103B, 0x0000102F, 0x2800202F, 0x04000043, 0x06000047,
      0x0400004B, 0x0600004F, 0x20003053, 0x28002053, 0xE0002053, 0xF0001053, 0x04000053].all unusedFunct = true) ∧
    [0x58100053, 0x5BF00053, 0xE0100053, 0xF0100053, 0xC0400053, 0xD3F00053].all otherFixedRs2 = true :=
  ⟨by decide, by decide, ⟨ok_of_toOption (by decide +kernel), by decide⟩,
    ⟨ok_of_toOption (by decide +kernel), by decide⟩, ⟨by decide, ok_of_toOption (by decide +kernel)⟩, by decide,
    by decide, by decide, by decide +kernel, by decide +kernel⟩

theorem witness_StepRunsDecodedInstruction : ∃ s t u : State,
    (s.run = .running ∧ s.params.memValid .fetch (readPc s.bits s).toNat 4 = true ∧
      (∀ a ∈ accessBytes (readPc s.bits s) 4, a ∉ s.stale) ∧
      decodeWord s.params.xlen (wordAt s (readPc s.bits s)) = .ok (.addi ⟨0⟩ ⟨0⟩ 0) ∧
      exec (.addi ⟨0⟩ ⟨0⟩ 0) s = .next t ∧ t.run = .running) ∧
    (decodeWord s.params.xlen 0x73 = .ok .ecall ∧ exec .ecall s = .next u ∧ u.run ≠ .running) :=
  ⟨top .rv32, _, _, ⟨by decide +kernel, by decide +kernel, by decide +kernel, ok_of_toOption (by decide +kernel), rfl,
    by decide⟩, ok_of_toOption (by decide +kernel), rfl, by decide⟩

theorem witness_ReservedWordsAndFailedFetches :
    (∃ s : State, s.run = .running ∧ s.params.memValid .fetch (readPc s.bits s).toNat 4 = false) ∧
    (∃ s : State, s.run = .running ∧ s.params.memValid .fetch (readPc s.bits s).toNat 4 = true ∧
      ∃ a ∈ accessBytes (readPc s.bits s) 4, a ∈ s.stale) ∧
    ∃ s : State, s.run = .running ∧ s.params.memValid .fetch (readPc s.bits s).toNat 4 = true ∧
      (∀ a ∈ accessBytes (readPc s.bits s) 4, a ∉ s.stale) ∧
      ∀ r ∈ opcodeRows, r.accepts s.params.xlen (wordAt s (readPc s.bits s)) = false :=
  ⟨⟨{ narrow with pc := 0x1010 }, by decide +kernel, by decide +kernel⟩,
    ⟨{ narrow with pc := 0x100C, stale := [0x100F] }, by decide +kernel, by decide +kernel, 0x100F, by decide +kernel,
      by decide +kernel⟩,
    ⟨at32 0x0000B183 [] [] [], by decide +kernel, by decide +kernel, by decide +kernel, by decide +kernel⟩⟩

/-! A run that stays in a constrained LR/SC loop for ever -/

/-- At 0x1000 `lr.w x0, (x0)`, `addi x0, x0, 0`, `sc.w x0, x0, (x0)`, `beq x0, x0, -12`: the word at 0 stays 0. -/
def spin (pc : Word) (draws : Nat) (loop : Option RetryLoop) (r : Option Reservation) : State :=
  { State.reset with
    pc := pc, scDraws := draws, retryLoop := loop, reservation := r, stale := [0, 1, 2, 3]
    mem := [(0x1000, 0x2F), (0x1001, 0x20), (0x1003, 0x10), (0x1004, 0x13), (0x1008, 0x2F), (0x1009, 0x20),
      (0x100B, 0x18), (0x100C, 0xE3), (0x100D, 0x0A), (0x100F, 0xFE)] }

/-- The reservation of that LR. -/
def spinSet : Option Reservation := some ⟨0, 64⟩

/-- The states of that loop, whatever was drawn and recorded. -/
def Spins (s : State) : Prop :=
  ∃ d l, s = spin 0x1000 d l none ∨ s = spin 0x1004 d l spinSet ∨ s = spin 0x1008 d l spinSet ∨ s = spin 0x100C d l none

theorem fetch_congr {s t : State} (h1 : s.params = t.params) (h2 : s.pc = t.pc) (h3 : s.mem = t.mem)
    (h4 : s.stale = t.stale) : fetch s = fetch t := by
  cases s; cases t; simp only at h1 h2 h3 h4; subst h1 h2 h3 h4; rfl

/-- One step, from what is fetched, decoded and executed. -/
theorem spin_step_eq {pc : Word} {w : InstWord} {i : Instr} {t : State} (d : Nat) (l : Option RetryLoop)
    (r : Option Reservation) (hf : fetch (spin pc 0 none none) = .word w) (hd : (decodeWord .rv64 w).toOption = some i)
    (he : exec i (spin pc d l r) = .next t) (ht : t.run = .running) :
    step (spin pc d l r) = .next (setLoop (nextLoop i (spin pc d l r) t) t) := by
  have hf' : fetch (spin pc d l r) = .word w := (fetch_congr rfl rfl rfl rfl).trans hf
  have hd' : decodeWord (spin pc d l r).params.xlen w = .ok i := ok_of_toOption hd
  have hr : (spin pc d l r).run = .running := rfl
  unfold step
  rw [hr, hf']
  simp only [hd', he, followLoop, ht]

theorem spin_lr (d : Nat) (l : Option RetryLoop) :
    exec (.lrW false false ⟨0⟩ ⟨0⟩) (spin 0x1000 d l none) = .next (spin 0x1004 d l spinSet) := by
  have e : ∀ s, exec (.lrW false false ⟨0⟩ ⟨0⟩) s = loadReserve 4 ⟨0⟩ ⟨0⟩ s := fun _ => rfl
  have hg : reservationSet Config.defaultParams 0 = ⟨0, 64⟩ := by decide
  have hv : ∀ kind ∈ lrKinds, Config.defaultParams.memValid kind 0 4 = true := by decide
  unfold spinSet
  rw [e, loadReserve_of_accessOk 4 ⟨0⟩ ⟨0⟩ (spin 0x1000 d l none) ⟨rfl, hv⟩, ← hg]
  rfl

theorem spin_addi (d : Nat) (l : Option RetryLoop) :
    exec (.addi ⟨0⟩ ⟨0⟩ 0) (spin 0x1004 d l spinSet) = .next (spin 0x1008 d l spinSet) := rfl

theorem spin_sc (d : Nat) (l : Option RetryLoop) :
    exec (.scW false false ⟨0⟩ ⟨0⟩ ⟨0⟩) (spin 0x1008 d l spinSet) = .next (spin 0x100C (d + 1) l none) := by
  have e : ∀ s, exec (.scW false false ⟨0⟩ ⟨0⟩ ⟨0⟩) s = storeConditional 4 ⟨0⟩ ⟨0⟩ ⟨0⟩ s := fun _ => rfl
  have hv : ∀ kind ∈ scKinds, Config.defaultParams.memValid kind 0 4 = true := by decide
  have ht : storeTrap (spin 0x1008 d l spinSet) scKinds (0 : BitVec 64) 4 = none := accessTrap_none (by rfl) hv
  have hr : endReservation 0 4 (spin 0x1008 d l spinSet) = spin 0x1008 (d + 1) l none := rfl
  have hm : (spin 0 0 none none).mem.writeLE (0 : BitVec 64) 4 0 = (spin 0 0 none none).mem := by decide +kernel
  have hs : addrInsertAll (accessBytes (0 : BitVec 64) 4) [0, 1, 2, 3] = [0, 1, 2, 3] := by decide +kernel
  have hb : storeBytes (0 : BitVec 64) 4 0 (spin 0x1008 (d + 1) l none) = spin 0x1008 (d + 1) l none := by
    show { spin 0x1008 (d + 1) l none with
      mem := (spin 0 0 none none).mem.writeLE (0 : BitVec 64) 4 0
      stale := addrInsertAll (accessBytes (0 : BitVec 64) 4) [0, 1, 2, 3] } = _
    rw [hm, hs]; rfl
  rw [e]
  show orElse (storeTrap (spin 0x1008 d l spinSet) scKinds (0 : BitVec 64) 4) (spin 0x1008 d l spinSet)
    (if _ then retireX _ (0 : BitVec 64) (storeBytes (0 : BitVec 64) 4 0 (endReservation 0 4 (spin 0x1008 d l spinSet)))
      else retireX _ (1 : BitVec 64) (endReservation 0 4 (spin 0x1008 d l spinSet))) = _
  rw [ht, hr, hb]
  unfold orElse
  simp only []
  split <;> rfl

theorem spin_beq (d : Nat) (l : Option RetryLoop) :
    exec (.beq ⟨0⟩ ⟨0⟩ (-12)) (spin 0x100C d l none) = .next (spin 0x1000 d l none) := by
  have e : ∀ s, exec (.beq ⟨0⟩ ⟨0⟩ (-12)) s = branch s (readX s.bits s ⟨0⟩ == readX s.bits s ⟨0⟩) (-12 : BitVec 13) :=
    fun _ => rfl
  have h : pcPlus (spin 0x100C d l none) (-12 : BitVec 13) = (0x1000 : BitVec 64) := by
    show (0x100C : BitVec 64).setWidth 64 + (-12 : BitVec 13).signExtend 64 = 0x1000
    decide
  have h0 : (0x1000 : BitVec 64).extractLsb' 0 2 = 0 := by decide
  rw [e, beq_self_eq_true]
  unfold branch
  rw [if_pos rfl, transfer_of_aligned _ _ (by rw [h]; exact h0), h]
  rfl

/-- Whatever the oracle answers, the loop goes on. -/
theorem spins_step {s : State} (hs : Spins s) :
    ∃ t, step s = .next t ∧ Spins t ∧ (s.pc = 0x1004 → t.pc = 0x1008) ∧ (s.pc = 0x100C → t.pc = 0x1000) := by
  have no (a b : Word) {p : Prop} (hab : a ≠ b) : a = b → p := fun h => absurd h hab
  obtain ⟨d, l, rfl | rfl | rfl | rfl⟩ := hs
  · exact ⟨_, spin_step_eq d l none (w := 0x1000202F) (by decide +kernel) (by decide +kernel) (spin_lr d l) rfl,
      ⟨_, _, .inr (.inl rfl)⟩, no 0x1000 0x1004 (by decide), no 0x1000 0x100C (by decide)⟩
  · exact ⟨_, spin_step_eq d l spinSet (w := 0x00000013) (by decide +kernel) (by decide +kernel) (spin_addi d l) rfl,
      ⟨_, _, .inr (.inr (.inl rfl))⟩, fun _ => rfl, no 0x1004 0x100C (by decide)⟩
  · exact ⟨_, spin_step_eq d l spinSet (w := 0x1800202F) (by decide +kernel) (by decide +kernel) (spin_sc d l) rfl,
      ⟨_, _, .inr (.inr (.inr rfl))⟩, no 0x1008 0x1004 (by decide), no 0x1008 0x100C (by decide)⟩
  · exact ⟨_, spin_step_eq d l none (w := 0xFE000AE3) (by decide +kernel) (by decide +kernel) (spin_beq d l) rfl,
      ⟨_, _, .inl rfl⟩, no 0x100C 0x1004 (by decide), fun _ => rfl⟩

theorem spins_at {s : State} (hs : Spins s) (k : Nat) : AtInstr 0x1000 k s ↔ s.pc = 0x1000 + BitVec.ofNat 64 (4 * k) := by
  have h : ∀ pc d l r, AtInstr 0x1000 k (spin pc d l r) ↔ pc = 0x1000 + BitVec.ofNat 64 (4 * k) := by
    intro pc d l r
    show pc.setWidth 64 = (0x1000 : Word).setWidth 64 + BitVec.ofNat 64 (4 * k) ↔ _
    simp
  obtain ⟨d, l, rfl | rfl | rfl | rfl⟩ := hs <;> exact h _ _ _ _

theorem spins_loopStep {s t : State} (hs : Spins s) (ht : Spins t) (hst : step s = .next t)
    (h1 : s.pc = 0x1004 → t.pc = 0x1008) (h2 : s.pc = 0x100C → t.pc = 0x1000) : LoopStep 0x1000 1 0 4 s t where
  steps := hst
  inside := by
    simp only [spins_at hs]
    obtain ⟨d, l, rfl | rfl | rfl | rfl⟩ := hs
    · exact ⟨0, by omega, rfl⟩
    · exact ⟨1, by omega, rfl⟩
    · exact ⟨2, by omega, rfl⟩
    · exact ⟨3, by omega, rfl⟩
  atLr := by
    have h : instrAt (spin 0 0 none none) (0x1000 : BitVec 64) = some (.lrW false false ⟨0⟩ ⟨0⟩) := by decide +kernel
    obtain ⟨d, l, rfl | rfl | rfl | rfl⟩ := hs <;> exact ⟨_, 0, h, rfl, fun _ => rfl⟩
  between := fun k hk hk' => by
    obtain rfl : k = 1 := by omega
    have h : instrAt (spin 0 0 none none) (0x1004 : BitVec 64) = some (.addi ⟨0⟩ ⟨0⟩ 0) := by decide +kernel
    obtain ⟨d, l, rfl | rfl | rfl | rfl⟩ := hs <;> exact ⟨_, h, rfl⟩
  atSc := by
    have h : instrAt (spin 0 0 none none) (0x1008 : BitVec 64) = some (.scW false false ⟨0⟩ ⟨0⟩ ⟨0⟩) := by
      decide +kernel
    obtain ⟨d, l, rfl | rfl | rfl | rfl⟩ := hs <;> exact ⟨_, 0, h, rfl, fun _ => rfl⟩
  atBranch := by
    have h : instrAt (spin 0 0 none none) (0x100C : BitVec 64) = some (.beq ⟨0⟩ ⟨0⟩ (-12)) := by decide +kernel
    obtain ⟨d, l, rfl | rfl | rfl | rfl⟩ := hs <;> exact ⟨_, h, rfl⟩
  forward := fun k hk hk' hat => by
    obtain rfl : k = 1 := by omega
    exact ⟨2, by omega, by omega, (spins_at ht 2).2 (h1 ((spins_at hs 1).1 hat))⟩
  retries := fun hat => (spins_at ht 0).2 (h2 ((spins_at hs 3).1 hat))

theorem witness_ConstrainedLoopProgress : ∃ run : Nat → State, 1 ≤ 14 ∧ (run 0).params.wf = true ∧
    ∀ j, LoopStep 0x1000 1 0 4 (run j) (run (j + 1)) := by
  choose next h1 h2 h3 h4 using @spins_step
  let go : Nat → { s : State // Spins s } := fun j =>
    j.rec ⟨spin 0x1000 0 none none, 0, none, .inl rfl⟩ fun _ s => ⟨next s.2, h2 s.2⟩
  refine ⟨fun j => (go j).1, by decide, (by decide : Config.defaultParams.wf = true), fun j => ?_⟩
  exact spins_loopStep (go j).2 (go (j + 1)).2 (h1 (go j).2) (h3 (go j).2) (h4 (go j).2)

/-- Program P4 of `95_test_vectors.md` at an address, with the record of its LR/SC loop. -/
def loopAt (pc : Word) (phase : LoopPhase) : State :=
  { at32 0x1000A12F [(1, 0x2000), (3, 1)] [] [] with
    mem := [(0x1004, 0x2F), (0x1005, 0xA1), (0x1007, 0x10), (0x1008, 0x13), (0x1009, 0x01), (0x100A, 0x11),
      (0x100C, 0xAF), (0x100D, 0xA1), (0x100E, 0x20), (0x100F, 0x18), (0x1010, 0xE3), (0x1011, 0x9A), (0x1012, 0x01),
      (0x1013, 0xFE), (0x1014, 0x2F), (0x1015, 0xA2), (0x1016, 0x20)]
    pc := pc, scDraws := 9, retryLoop := some ⟨0x1004, 7, phase⟩ }

/-- `43_a_atomics.md` R263 on that loop: LR again, ADDI, the SC failing (no reservation), the branch back; and an AMO in
place of the branch ends the record. -/
theorem test_loop_record :
    [loopAt 0x1004 .retrying, loopAt 0x1008 (.between 0x2000 4), loopAt 0x100C (.between 0x2000 4),
      loopAt 0x1010 .retrying, loopAt 0x1014 .retrying, loopAt 0x100C (.between 0x2004 4)].map
        (fun s => (after s).map (·.retryLoop)) =
      [some (some ⟨0x1004, 7, .between 0x2000 4⟩), some (some ⟨0x1004, 7, .between 0x2000 4⟩),
        some (some ⟨0x1004, 7, .retrying⟩), some (some ⟨0x1004, 7, .retrying⟩), some none, some none] := by
  decide +kernel

/-- The step that is refused, and the stopped hart. -/
theorem witness_StepStopsNowhereElse :
    step { top .rv64 with stale := [0x1003] } = .refused (.staleFetch 0x1003) ∧
    step { top .rv64 with run := .stopped ⟨.breakpoint, 0⟩ } = .fault (.hartStopped ⟨.breakpoint, 0⟩) :=
  ⟨rfl, rfl⟩

theorem witness_TrapDelivery : ∃ t, (top .rv64).run = .running ∧ exec .ecall (top .rv64) = .next t ∧
    t.run = .stopped ⟨.environmentCall, 0⟩ := ⟨_, rfl, rfl, rfl⟩

theorem witness_ResetMeetsInvariant : ∃ (p : Params) (xs : Vector Word 32) (image : Memory), p.wf = true ∧
    (∀ (k : Nat) (h : k < 32), xs[k].toNat < 2 ^ p.xlen.bits) ∧ image.wf = true ∧
    ∀ c ∈ image, c.1 < 2 ^ p.xlen.bits :=
  ⟨params .rv32, Vector.replicate 32 0xFFFFFFFF, [(0, 1), (0xFFFFFFFF, 2)], by decide,
    fun k h => by rw [Vector.getElem_replicate]; decide, by decide, by decide⟩

/-- A state that meets the invariant, with a listed byte, a stale address and a reservation, and its step. -/
def busy : State :=
  { State.resetWith (params .rv64) (Vector.replicate 32 5) (Vector.replicate 32 0) 0
      [(0x1000, 0x13), (0x2000, 1)] with
    reservation := some ⟨0x2000, 64⟩, stale := [0x2000] }

theorem witness_StepKeepsInvariant : Inv busy ∧ ∃ t, step busy = .next t := by
  refine ⟨⟨by decide, by decide, by decide, by decide +kernel, fun k h => ?_, by decide, by decide, by decide,
    by decide, fun r hr => ?_⟩, _, rfl⟩
  · have e : busy.xs[k] = if 0 = k then 0 else 5 := by
      show ((Vector.replicate 32 (5 : Word)).set 0 0)[k] = _
      rw [Vector.getElem_set, Vector.getElem_replicate]
    rw [e]; split <;> decide
  · have e : r = ⟨0x2000, 64⟩ := by
      have : some (⟨0x2000, 64⟩ : Reservation) = some r := hr
      simpa using this.symm
    subst e; decide

theorem witness_TrapsWriteNothing : ∃ t u, (top .rv64).run = .running ∧ step (top .rv64) = .next t ∧
    (narrow.run = .running ∧ step { narrow with pc := 0 } = .next u) :=
  ⟨_, _, rfl, rfl, rfl, rfl⟩

theorem witness_RaisedExceptionsListed : ∃ t, (Instr.lw ⟨5⟩ ⟨3⟩ 0).wellFormed (top .rv32).params.xlen = true ∧
    (top .rv32).run = .running ∧ exec (.lw ⟨5⟩ ⟨3⟩ 0) (top .rv32) = .next t ∧
    t.run = .stopped ⟨.loadAddressMisaligned, 0x2001⟩ := ⟨_, by decide, rfl, rfl, by decide +kernel⟩

theorem witness_PcAdvancesUnlessTransfer :
    (∃ t, (top .rv32).run = .running ∧ exec .ecall (top .rv32) = .next t ∧ t.run ≠ .running) ∧
    (∃ t, exec (.add ⟨1⟩ ⟨1⟩ ⟨1⟩) (top .rv32) = .next t ∧ t.run = .running ∧ isTransfer (.add ⟨1⟩ ⟨1⟩ ⟨1⟩) = false) ∧
    (∃ t, exec (.beq ⟨0⟩ ⟨0⟩ (-4096)) (top .rv32) = .next t ∧ t.run = .running) ∧
    ∃ t, exec (.jal ⟨0⟩ (-4)) (top .rv32) = .next t ∧ t.run = .running :=
  ⟨⟨_, rfl, rfl, by decide⟩, ⟨_, rfl, by decide, by decide⟩, ⟨_, rfl, by decide +kernel⟩, ⟨_, rfl, by decide +kernel⟩⟩

theorem witness_OnlyDestinationsChange : ∃ t, exec (.fleS ⟨5⟩ ⟨1⟩ ⟨1⟩) (top .rv32) = .next t ∧
    destX (.fleS ⟨5⟩ ⟨1⟩ ⟨1⟩) ≠ some ⟨4⟩ ∧ destF (.fleS ⟨5⟩ ⟨1⟩ ⟨1⟩) ≠ some ⟨5⟩ := ⟨_, rfl, by decide, by decide⟩

theorem witness_OnlyStoresWriteMemory : ∃ t u, exec (.lw ⟨5⟩ ⟨4⟩ 0) (top .rv32) = .next t ∧
    writesMemory (.lw ⟨5⟩ ⟨4⟩ 0) = false ∧ Instr.lw ⟨5⟩ ⟨4⟩ 0 ≠ .fenceI ∧
    exec .fenceI (top .rv32) = .next u ∧ writesMemory .fenceI = false := ⟨_, _, rfl, by decide, by decide, rfl, by decide⟩

theorem witness_OnlyLrScTouchReservation : ∃ t, exec (.amoaddW true true ⟨5⟩ ⟨4⟩ ⟨2⟩) free = .next t ∧
    touchesReservation (.amoaddW true true ⟨5⟩ ⟨4⟩ ⟨2⟩) = false := ⟨_, rfl, by decide⟩

theorem witness_FlagsAreSticky : ∃ t u, exec (.fsrm ⟨5⟩ ⟨2⟩) (top .rv32) = .next t ∧
    writesFflags (.fsrm ⟨5⟩ ⟨2⟩) = false ∧ exec (.fsflags ⟨5⟩ ⟨2⟩) (top .rv32) = .next u ∧
    writesFrm (.fsflags ⟨5⟩ ⟨2⟩) = false := ⟨_, _, rfl, by decide, rfl, by decide⟩

theorem witness_FlagsReadOnlyByAccess : ∃ t, (∀ (rd rs1 : XReg) (uimm : BitVec 5), Instr.frrm ⟨5⟩ ≠ .frcsr rd ∧
      Instr.frrm ⟨5⟩ ≠ .frflags rd ∧ Instr.frrm ⟨5⟩ ≠ .fscsr rd rs1 ∧ Instr.frrm ⟨5⟩ ≠ .fsflags rd rs1 ∧
      Instr.frrm ⟨5⟩ ≠ .fsflagsi rd uimm) ∧ exec (.frrm ⟨5⟩) (top .rv32) = .next t :=
  ⟨_, fun _ _ _ => ⟨nofun, nofun, nofun, nofun, nofun⟩, rfl⟩

theorem witness_ZeroRegister : ∃ t, exec (.addi ⟨0⟩ ⟨2⟩ 1) (top .rv64) = .next t := ⟨_, rfl⟩

theorem witness_LittleEndianMemory : (32 : Nat) ∈ [32, 64] ∧ (8 : Nat) ∈ [1, 2, 4, 8] ∧ 7 < 8 ∧
    0x2000 ∉ accessBytes (0xFFFFFFFC : BitVec 32) 8 := by decide

/-- `XLEN = 64`, for ImmediateShifts, WordImmediates, WordRegisters, WordMultiplyDivide and FloatMoves. -/
theorem witness_rv64 : (top .rv64).params.xlen = .rv64 := rfl

theorem witness_JumpsLinkAndTransfer :
    (BitVec.ofInt (top .rv32).bits ((readPc (top .rv32).bits (top .rv32)).toNat + (-0x1004))).toNat % 4 = 0 ∧
    (BitVec.ofInt (top .rv32).bits ((readPc (top .rv32).bits (top .rv32)).toNat + 2)).toNat % 4 ≠ 0 ∧
    (BitVec.ofNat 32 ((BitVec.ofInt 32 ((readX 32 (top .rv32) ⟨2⟩).toInt + 2)).toNat / 2 * 2)).toNat % 4 = 0 ∧
    (BitVec.ofNat 32 ((BitVec.ofInt 32 ((readX 32 (top .rv32) ⟨2⟩).toInt + 0)).toNat / 2 * 2)).toNat % 4 ≠ 0 := by
  decide +kernel

/-- Operands for which each condition holds, and for which it does not; an aligned target and one that is not. -/
theorem witness_BranchesTransferWhenTaken :
    let x := readX 32 (top .rv32) ⟨2⟩
    let y := readX 32 (top .rv32) ⟨0⟩
    let target (off : Int) := BitVec.ofInt 32 ((readPc 32 (top .rv32)).toNat + off)
    (¬ x = y ∧ y = y) ∧ (x ≠ y ∧ ¬ y ≠ y) ∧ (x.toInt < y.toInt ∧ ¬ y.toInt < y.toInt) ∧
      (y.toInt ≤ y.toInt ∧ ¬ y.toInt ≤ x.toInt) ∧ (y.toNat < x.toNat ∧ ¬ x.toNat < y.toNat) ∧
      (x.toNat ≤ x.toNat ∧ ¬ x.toNat ≤ y.toNat) ∧ (target (-4096)).toNat % 4 = 0 ∧ (target 4094).toNat % 4 ≠ 0 := by
  decide +kernel

/-- Aligned, valid accesses of every width, up to the last byte of the address space. -/
theorem witness_accesses (x : XLen) :
    let s := top x
    AccessOk s [.load] (effAddr s ⟨1⟩ 7) 1 ∧ AccessOk s [.load] (effAddr s ⟨1⟩ 6) 2 ∧
      AccessOk s [.load] (effAddr s ⟨1⟩ 4) 4 ∧ AccessOk s [.load] (effAddr s ⟨1⟩ 0) 8 ∧
      AccessOk s [.store] (effAddr s ⟨1⟩ 7) 1 ∧ AccessOk s [.store] (effAddr s ⟨1⟩ 6) 2 ∧
      AccessOk s [.store] (effAddr s ⟨1⟩ 4) 4 ∧ AccessOk s [.store] (effAddr s ⟨1⟩ 0) 8 := by
  cases x <;> exact ⟨⟨by decide +kernel, by decide +kernel⟩, ⟨by decide +kernel, by decide +kernel⟩,
    ⟨by decide +kernel, by decide +kernel⟩, ⟨by decide +kernel, by decide +kernel⟩,
    ⟨by decide +kernel, by decide +kernel⟩, ⟨by decide +kernel, by decide +kernel⟩,
    ⟨by decide +kernel, by decide +kernel⟩, ⟨by decide +kernel, by decide +kernel⟩⟩

/-- For LoadsExtend and FloatLoadsStores. -/
theorem witness_LoadsExtend : AccessOk (top .rv64) [.load] (effAddr (top .rv64) ⟨1⟩ 0) 8 ∧
    (top .rv64).params.xlen = .rv64 := ⟨(witness_accesses .rv64).2.2.2.1, rfl⟩

theorem witness_StoresWriteLowBytes : AccessOk (top .rv64) [.store] (effAddr (top .rv64) ⟨1⟩ 0) 8 ∧
    (top .rv64).params.xlen = .rv64 := ⟨(witness_accesses .rv64).2.2.2.2.2.2.2, rfl⟩

/-- Misaligned by one at each width, and aligned but refused. -/
theorem witness_AccessTraps :
    (effAddr (top .rv64) ⟨3⟩ 0).toNat % 2 ≠ 0 ∧ (effAddr (top .rv64) ⟨3⟩ 1).toNat % 4 ≠ 0 ∧
    (effAddr (top .rv64) ⟨3⟩ 3).toNat % 8 ≠ 0 ∧ (top .rv64).params.xlen = .rv64 ∧
    (effAddr narrow ⟨4⟩ 0).toNat % 8 = 0 ∧
    (∃ kind ∈ [AccessKind.load], narrow.params.memValid kind (effAddr narrow ⟨4⟩ 0).toNat 8 = false) ∧
    ∃ kind ∈ [AccessKind.store], narrow.params.memValid kind (effAddr narrow ⟨4⟩ 0).toNat 1 = false := by
  decide +kernel

/-- A zero divisor, the overflow, and neither, at both widths. -/
theorem witness_Divides :
    (readX 32 (top .rv32) ⟨0⟩).toNat = 0 ∧
    (let s := at32 0x13 [(1, 0x80000000), (2, 0xFFFFFFFF), (3, 0x80000001)] [] [];
      s.params.xlen = .rv32 ∧ (readX s.bits s ⟨1⟩).toInt = -2 ^ (s.bits - 1) ∧ (readX s.bits s ⟨2⟩).toInt = -1 ∧
      (readX s.bits s ⟨2⟩).toNat ≠ 0 ∧ ¬ ((readX s.bits s ⟨3⟩).toInt = -2 ^ (s.bits - 1) ∧
        (readX s.bits s ⟨2⟩).toInt = -1)) := by
  decide +kernel

theorem witness_WordMultiplyDivide :
    let s := at64 0x13 [(1, 0x80000000), (2, 0xFFFFFFFF), (3, 0x80000001)] [] []
    s.params.xlen = .rv64 ∧ (readX 32 s ⟨0⟩).toNat = 0 ∧
      ((readX 32 s ⟨1⟩).toInt = -2 ^ 31 ∧ (readX 32 s ⟨2⟩).toInt = -1) ∧
      (readX 32 s ⟨2⟩).toNat ≠ 0 ∧ ¬ ((readX 32 s ⟨3⟩).toInt = -2 ^ 31 ∧ (readX 32 s ⟨2⟩).toInt = -1) := by
  decide +kernel

/-- Atomic accesses at 0x2000, and at the top of memory. -/
theorem witness_LoadReservedReserves : free.params.wf = true ∧ AccessOk free lrKinds (readX free.bits free ⟨4⟩) 4 ∧
    AccessOk free lrKinds (readX free.bits free ⟨1⟩) 8 ∧ free.params.xlen = .rv64 :=
  ⟨by decide, ⟨by decide +kernel, by decide +kernel⟩, ⟨by decide +kernel, by decide +kernel⟩, rfl⟩

/-- SC inside the set, with and without the parameter; at the last word inside; one past it; with no reservation. -/
theorem witness_StoreConditionalOutcomes :
    AccessOk free scKinds (readX free.bits free ⟨4⟩) 4 ∧ AccessOk free scKinds (readX free.bits free ⟨4⟩) 8 ∧
    HoldsReservation free (readX free.bits free ⟨4⟩) 4 ∧ free.params.scMayFailSpuriously = true ∧
    ({ free with params := params .rv64 } : State).params.scMayFailSpuriously = false ∧
    HoldsReservation free (0x203C : BitVec 64) 4 ∧ ¬ HoldsReservation free (0x2040 : BitVec 64) 4 ∧
    ¬ HoldsReservation (top .rv64) (0x2000 : BitVec 64) 4 := by
  refine ⟨⟨by decide +kernel, by decide +kernel⟩, ⟨by decide +kernel, by decide +kernel⟩,
    ⟨⟨0x2000, 64⟩, rfl, by decide +kernel, by decide +kernel⟩, rfl, rfl, ⟨⟨0x2000, 64⟩, rfl, by decide, by decide⟩,
    ?_, ?_⟩
  · rintro ⟨r, hr, -, h⟩
    have e : some (⟨0x2000, 64⟩ : Reservation) = some r := hr
    rw [Option.some.injEq] at e; subst e
    exact absurd h (by decide)
  · rintro ⟨r, hr, -⟩
    have e : (none : Option Reservation) = some r := hr
    cases e

theorem witness_AtomicUpdates : AccessOk free amoKinds (readX free.bits free ⟨4⟩) 4 ∧
    AccessOk free amoKinds (readX free.bits free ⟨1⟩) 8 ∧ free.params.xlen = .rv64 :=
  ⟨⟨by decide +kernel, by decide +kernel⟩, ⟨by decide +kernel, by decide +kernel⟩, rfl⟩

theorem witness_AtomicTraps : (readX free.bits free ⟨3⟩).toNat % 4 ≠ 0 ∧ (readX free.bits free ⟨3⟩).toNat % 8 ≠ 0 ∧
    free.params.xlen = .rv64 ∧ (readX narrow.bits narrow ⟨4⟩).toNat % 8 = 0 ∧
    (∃ kind ∈ lrKinds, narrow.params.memValid kind (readX narrow.bits narrow ⟨4⟩).toNat 4 = false) ∧
    (∃ kind ∈ scKinds, narrow.params.memValid kind (readX narrow.bits narrow ⟨4⟩).toNat 8 = false) ∧
    ∃ kind ∈ amoKinds, narrow.params.memValid kind (readX narrow.bits narrow ⟨4⟩).toNat 8 = false := by
  decide +kernel

theorem witness_FloatLoadsStores : AccessOk (top .rv32) [.load] (effAddr (top .rv32) ⟨1⟩ 0) 8 ∧
    AccessOk (top .rv32) [.load] (effAddr (top .rv32) ⟨1⟩ 4) 4 ∧
    AccessOk (top .rv32) [.store] (effAddr (top .rv32) ⟨1⟩ 4) 4 ∧
    AccessOk (top .rv32) [.store] (effAddr (top .rv32) ⟨1⟩ 0) 8 :=
  ⟨(witness_accesses .rv32).2.2.2.1, (witness_accesses .rv32).2.2.1, (witness_accesses .rv32).2.2.2.2.2.2.1,
    (witness_accesses .rv32).2.2.2.2.2.2.2⟩

theorem witness_ReservedRoundingModes : rmOf (.fcvtDW 5 ⟨1⟩ ⟨1⟩) = some 5 ∧ ReservedMode 5 0 ∧ ReservedMode 6 0 ∧
    ReservedMode 7 5 ∧ ReservedMode 7 7 ∧ ({ top .rv64 with fcsr := 0xA0 } : State).frm = 5 :=
  ⟨rfl, .inl rfl, .inr (.inl rfl), .inr (.inr ⟨rfl, by decide⟩), .inr (.inr ⟨rfl, by decide⟩), by decide⟩

/-- A register that is boxed and one that is not. -/
theorem witness_NaNBoxing :
    (readF (at64 0x13 [] [(1, 0xFFFFFFFF00000001)] []) ⟨1⟩).toNat / 2 ^ 32 = 2 ^ 32 - 1 ∧
    (readF (at64 0x13 [] [(1, 0xFFFFFFFE00000001)] []) ⟨1⟩).toNat / 2 ^ 32 ≠ 2 ^ 32 - 1 := by decide +kernel

/-- Static modes and the dynamic one, for SingleArithmetic, DoubleArithmetic, FloatToInteger and IntegerToFloat. -/
theorem witness_EffectiveMode : EffectiveMode 0 7 .rne ∧ EffectiveMode 4 0 .rmm ∧
    EffectiveMode 7 ({ top .rv64 with fcsr := 0x80 } : State).frm .rmm ∧
    EffectiveMode 7 (top .rv64).frm .rne ∧ (top .rv64).params.xlen = .rv64 :=
  ⟨.inl rfl, .inl rfl, .inr ⟨rfl, by decide⟩, .inr ⟨rfl, by decide +kernel⟩, rfl⟩

/-- Operands that are ordered, the other way round, equal but for the sign of zero, and a NaN, for FloatMinMax and
FloatCompareClassify. -/
theorem witness_FloatCompareClassify :
    (isNaN binary32 (0x7FC00000 : BitVec 32) || isNaN binary32 (0 : BitVec 32)) = true ∧
    (isNaN binary32 (0xFF800000 : BitVec 32) || isNaN binary32 (0x7F7FFFFF : BitVec 32)) = false ∧
    Less binary32 (0xFF800000 : BitVec 32) (0x7F7FFFFF : BitVec 32) ∧
    ¬ Less binary32 (0x80000000 : BitVec 32) (0 : BitVec 32) ∧
    ¬ Less binary32 (0 : BitVec 32) (0x80000000 : BitVec 32) := by
  have z0 : valueOf binary32 (0 : BitVec 32) = 0 := by
    have h1 : expField binary32 (0 : BitVec 32) = 0 := by decide
    have h2 : fracField binary32 (0 : BitVec 32) = 0 := by decide
    unfold valueOf; rw [h1, h2]; simp
  have z1 : valueOf binary32 (0x80000000 : BitVec 32) = 0 := by
    have h1 : expField binary32 (0x80000000 : BitVec 32) = 0 := by decide
    have h2 : fracField binary32 (0x80000000 : BitVec 32) = 0 := by decide
    unfold valueOf; rw [h1, h2]; simp
  refine ⟨by decide, by decide, .inl ⟨by decide, by decide, by decide⟩, ?_, ?_⟩
  · rintro (⟨h, -⟩ | ⟨h, -⟩ | ⟨-, -, h⟩)
    · exact absurd h (by decide)
    · exact absurd h (by decide)
    · rw [z0, z1] at h; exact lt_irrefl _ h
  · rintro (⟨h, -⟩ | ⟨h, -⟩ | ⟨-, -, h⟩)
    · exact absurd h (by decide)
    · exact absurd h (by decide)
    · rw [z0, z1] at h; exact lt_irrefl _ h

/-- The value of 1.0 and of 2.0. -/
theorem value_one_two : valueOf binary32 (0x3F800000 : BitVec 32) = 1 ∧ valueOf binary32 (0x40000000 : BitVec 32) = 2 := by
  have h1 : expField binary32 (0x3F800000 : BitVec 32) = 127 := by decide
  have h2 : fracField binary32 (0x3F800000 : BitVec 32) = 0 := by decide
  have h3 : signBit binary32 (0x3F800000 : BitVec 32) = false := by decide
  have h4 : expField binary32 (0x40000000 : BitVec 32) = 128 := by decide
  have h5 : fracField binary32 (0x40000000 : BitVec 32) = 0 := by decide
  have h6 : signBit binary32 (0x40000000 : BitVec 32) = false := by decide
  have hb : binary32.bias = 127 := by decide
  constructor
  · unfold valueOf; rw [h1, h2, h3, hb]; norm_num [signOf]
  · unfold valueOf; rw [h4, h5, h6, hb]; norm_num [signOf]

theorem witness_SumsProductsRoundedOnce : IsFormat binary32 ∧ isFinite binary32 (0x3F800000 : BitVec 32) = true ∧
    isFinite binary32 (0x40000000 : BitVec 32) = true ∧
    valueOf binary32 (0x3F800000 : BitVec 32) + valueOf binary32 (0x40000000 : BitVec 32) ≠ 0 ∧
    valueOf binary32 (0x3F800000 : BitVec 32) - valueOf binary32 (0x40000000 : BitVec 32) ≠ 0 ∧
    valueOf binary32 (0x3F800000 : BitVec 32) * valueOf binary32 (0x40000000 : BitVec 32) ≠ 0 ∧
    signOf true * (valueOf binary32 (0x3F800000 : BitVec 32) * valueOf binary32 (0x40000000 : BitVec 32)) +
      signOf false * valueOf binary32 (0x3F800000 : BitVec 32) ≠ 0 := by
  rw [value_one_two.1, value_one_two.2]
  exact ⟨.inl rfl, by decide, by decide, by norm_num, by norm_num, by norm_num, by norm_num [signOf]⟩

theorem witness_QuotientsRootsRoundedOnce : IsFormat binary32 ∧ isFinite binary32 (0x40000000 : BitVec 32) = true ∧
    valueOf binary32 (0x3F800000 : BitVec 32) ≠ 0 ∧ valueOf binary32 (0x40000000 : BitVec 32) ≠ 0 ∧
    0 < valueOf binary32 (0x40000000 : BitVec 32) := by
  rw [value_one_two.1, value_one_two.2]
  exact ⟨.inl rfl, by decide, by norm_num, by norm_num, by norm_num⟩

/-- NaNs, infinities of both signs, a zero, and a negative number, for NaNRules and InfinitiesAndZeros. -/
theorem witness_NaNRules : isNaN binary32 (0x7F800001 : BitVec 32) = true ∧
    isSignaling binary32 (0x7F800001 : BitVec 32) = true ∧ isNaN binary32 (0xFFC00000 : BitVec 32) = true ∧
    isInfinite binary32 (0x7F800000 : BitVec 32) = true ∧ isInfinite binary32 (0xFF800000 : BitVec 32) = true ∧
    signBit binary32 (0x7F800000 : BitVec 32) ≠ signBit binary32 (0xFF800000 : BitVec 32) ∧
    isFinite binary32 (0 : BitVec 32) = true ∧ valueOf binary32 (0 : BitVec 32) = 0 ∧
    isFinite binary32 (0xBF800000 : BitVec 32) = true ∧ signBit binary32 (0xBF800000 : BitVec 32) = true := by
  refine ⟨by decide, by decide, by decide, by decide, by decide, by decide, by decide, ?_, by decide, by decide⟩
  have h1 : expField binary32 (0 : BitVec 32) = 0 := by decide
  have h2 : fracField binary32 (0 : BitVec 32) = 0 := by decide
  unfold valueOf; rw [h1, h2]; simp

/-- Exact cancellation, a zero product, and infinite operands. -/
theorem witness_InfinitiesAndZeros :
    valueOf binary32 (0x3F800000 : BitVec 32) - valueOf binary32 (0x3F800000 : BitVec 32) = 0 ∧
    valueOf binary32 (0x3F800000 : BitVec 32) * valueOf binary32 (0 : BitVec 32) = 0 ∧
    valueOf binary32 (0x3F800000 : BitVec 32) ≠ 0 ∧
    isInfinite binary32 (0x7F800000 : BitVec 32) = true ∧ isFinite binary32 (0x3F800000 : BitVec 32) = true := by
  have h : valueOf binary32 (0 : BitVec 32) = 0 := witness_NaNRules.2.2.2.2.2.2.2.1
  rw [value_one_two.1, h]
  exact ⟨by norm_num, by norm_num, by norm_num, by decide, by decide⟩

end Sys2Proof.Tests

end
end

section
/-! What a step of a running hart is, from its fetch and its decoding (`00_scope.md` R11, `20_memory.md` R68). -/

namespace Sys2Proof.Machine

/-- A valid fetch that meets no stale byte answers the word at `pc` (R63, R68). -/
theorem fetch_eq_word {s : State} (hvalid : s.params.memValid .fetch (readPc s.bits s).toNat 4 = true)
    (hfresh : ∀ a ∈ fetchAddrs s, a ∉ s.stale) : fetch s = .word (wordAt s (readPc s.bits s)) := by
  rcases fetch_cases s with ⟨hinvalid, -⟩ | ⟨-, a, ha, hstale, -⟩ | ⟨-, -, hword⟩
  · rw [hvalid] at hinvalid; cases hinvalid
  · exact absurd hstale (hfresh a ha)
  · exact hword

/-- A running hart that fetches the word of `i` executes `i` and keeps the record of its LR/SC loop. -/
theorem step_of_fetch_decode {s : State} {w : InstWord} {i : Instr} (hrun : s.run = .running)
    (hfetch : fetch s = .word w) (hdecode : decodeWord s.params.xlen w = .ok i) :
    step s = followLoop i s (exec i s) := by
  simp only [step, hrun, hfetch, hdecode]

/-- Where the hart runs on, the record is the next one. -/
theorem followLoop_next_of_running {t : State} (i : Instr) (s : State) (ht : t.run = .running) :
    followLoop i s (.next t) = .next { t with retryLoop := nextLoop i s t } := by
  rw [followLoop_next, if_pos ht]

/-- A state that is stopped on a trap keeps the record it has (`60_exceptions.md` R424). -/
theorem followLoop_next_of_not_running {t : State} (i : Instr) (s : State) (ht : t.run ≠ .running) :
    followLoop i s (.next t) = .next t := by
  rw [followLoop_next, if_neg ht]

end Sys2Proof.Machine

namespace Sys2Proof.Proofs

open Sys2Proof.Machine

/-- Settles O6: the fetch answers the word at `pc`, so the step is `followLoop` of what `exec` answers, and that changes
the record alone, where the hart runs on. -/
theorem stepRunsDecodedInstruction : Obligations.StepRunsDecodedInstruction := by
  intro s t i hrun hvalid hfresh hdecode hexec
  have hstep : step s = followLoop i s (.next t) := by
    rw [step_of_fetch_decode hrun (fetch_eq_word hvalid hfresh) hdecode, hexec]
  rw [hstep]
  exact ⟨followLoop_next_of_running i s, followLoop_next_of_not_running i s⟩

end Sys2Proof.Proofs
end

section
/-! The forms in which the meanings are made. `exec_form` is the one walk over the instructions: each meaning is a
control form over an edit of the state, and an edit is a composition of the named operations on the state. What every
instruction does or leaves alone is then an induction over these few shapes. -/

namespace Sys2Proof.Machine

/-! ### Edits and forms -/

/-- The five instructions that return the accrued flags (`44_f_single.md` R336, R338, R339, R341, R343). -/
def readsFflags : Instr → Bool
  | .frcsr .. => true
  | .frflags .. => true
  | .fscsr .. => true
  | .fsflags .. => true
  | .fsflagsi .. => true
  | _ => false

/-- Unless the instruction returns the flags, the value is the same whatever they are. -/
def IgnoresFlags {β : Type} (i : Instr) (v : State → β) : Prop :=
  readsFflags i = false → ∀ fl s, v (setFflags fl s) = v s

/-- The same of a value of `XLEN` bits. -/
def IgnoresFlagsX (i : Instr) (v : ∀ s : State, BitVec s.bits) : Prop :=
  readsFflags i = false → ∀ fl s, v (setFflags fl s) = v s

/-- What the instruction may make of `fcsr`: it clears no flag and keeps `frm` unless it is one of those that write
them, and the `frm` it leaves does not come from the flags (`10_state.md` R32). -/
structure FcsrUse (i : Instr) (c : State → BitVec 8) : Prop where
  sticky : writesFflags i = false → ∀ s, s.fflags &&& (c s).extractLsb' 0 5 = s.fflags
  keeps_frm : writesFrm i = false → ∀ s, (c s).extractLsb' 5 3 = s.frm
  frm_ignores_flags : IgnoresFlags i fun s => (c s).extractLsb' 5 3

/-- What an instruction that completes may do to the state, when `XLEN` is `x`, before `pc` moves. Every operand is
read from the state before, so each is a function of that state. -/
inductive Edit (i : Instr) (x : XLen) : (State → State) → Prop where
  /-- Nothing. -/
  | keep : Edit i x fun s => s
  /-- Another `fcsr`. -/
  | fcsr {c : State → BitVec 8} (hc : FcsrUse i c) : Edit i x fun s => setFcsr (c s) s
  /-- FENCE.I: no byte is stale. -/
  | sync (hi : i = .fenceI) : Edit i x syncFetch
  /-- LR: the reservation. -/
  | reserve {addr : ∀ s : State, BitVec s.bits} (hi : touchesReservation i = true) (ha : IgnoresFlagsX i addr) :
      Edit i x fun s => reserve (reservationSet s.params (addr s).toNat) s
  /-- SC: the end of the reservation. -/
  | unreserve {addr : ∀ s : State, BitVec s.bits} {n : Nat} (hi : touchesReservation i = true)
      (ha : IgnoresFlagsX i addr) : Edit i x fun s => endReservation (addr s).toNat n s
  /-- Bytes written to memory, after another edit. -/
  | store {addr : ∀ s : State, BitVec s.bits} {n : Nat} {v : State → BitVec (8 * n)} {e : State → State}
      (hi : writesMemory i = true) (ha : IgnoresFlagsX i addr) (hv : IgnoresFlags i v) (he : Edit i x e) :
      Edit i x fun s => storeBytes (addr s) n (v s) (e s)
  /-- The integer `rd`, with a value that fits, after another edit. -/
  | writeX {rd : XReg} {v : State → Word} {e : State → State} (hi : destX i = some rd)
      (hfit : ∀ s : State, s.params.xlen = x → (v s).toNat < 2 ^ s.bits) (hv : IgnoresFlags i v) (he : Edit i x e) :
      Edit i x fun s => writeX rd (v s) (e s)
  /-- The floating-point `rd`, after another edit. -/
  | writeF {rd : FReg} {v : State → Word} {e : State → State} (hi : destF i = some rd) (hv : IgnoresFlags i v)
      (he : Edit i x e) : Edit i x fun s => writeF rd (v s) (e s)

/-- The forms in which the meaning of an instruction is made, when `XLEN` is `x`. -/
inductive ExecForm (i : Instr) (x : XLen) : (State → Result) → Prop where
  /-- It always raises. -/
  | raises {c : Cause} {info : State → Word} (hinfo : IgnoresFlags i info) : ExecForm i x fun s => raise s c (info s)
  /-- It edits the state and moves to the next instruction. -/
  | retires {e : State → State} (he : Edit i x e) : ExecForm i x fun s => retire (e s)
  /-- It edits the state and goes to a target, or raises for a misaligned one. -/
  | transfers {e : State → State} {target : ∀ s : State, BitVec s.bits} (hi : isTransfer i = true) (he : Edit i x e)
      (htarget : IgnoresFlagsX i target) : ExecForm i x fun s => transfer s (e s) (target s)
  /-- It takes the trap of an access, if that has one, before anything else. -/
  | checks {trap : State → Option Trap} {f : State → Result} (htrap : IgnoresFlags i trap) (hf : ExecForm i x f) :
      ExecForm i x fun s => orElse (trap s) s (f s)
  /-- It does one or the other. -/
  | chooses {b : State → Bool} {f g : State → Result} (hb : IgnoresFlags i b) (hf : ExecForm i x f)
      (hg : ExecForm i x g) : ExecForm i x fun s => if b s then f s else g s
  /-- It exists when `XLEN = 64` only. -/
  | only64 {f : State → Result} (hf : x = .rv64 → ExecForm i x f) : ExecForm i x fun s => when64 i s (f s)
  /-- It runs under the effective rounding mode, if that is legal. -/
  | rounds {rm : BitVec 3} {k : RoundingMode → State → Result} (hk : ∀ mode, ExecForm i x (k mode)) :
      ExecForm i x fun s => withMode i rm s fun mode => k mode s

section
variable {i : Instr} {x : XLen}

/-! ### The edits that instructions make -/

/-- Writing a value to a register is writing the 64 bits that carry it. -/
theorem writeX_setWidth {w : Nat} (rd : XReg) (v : BitVec w) (s : State) :
    writeX rd (v.setWidth 64) s = writeX rd v s := by
  simp [writeX, setX]

/-- A value of `XLEN` bits fits `XLEN` bits when carried in 64. -/
theorem toNat_setWidth_lt (s : State) (v : BitVec s.bits) : (v.setWidth 64).toNat < 2 ^ s.bits := by
  rw [BitVec.toNat_setWidth]
  exact (Nat.mod_le _ _).trans_lt v.isLt

theorem Edit.ofWriteX {rd : XReg} {v : ∀ s : State, BitVec s.bits} {e : State → State} (hi : destX i = some rd)
    (hv : IgnoresFlagsX i v) (he : Edit i x e) : Edit i x fun s => Machine.writeX rd (v s) (e s) := by
  have hcarried : Edit i x fun s => Machine.writeX rd ((v s).setWidth 64) (e s) :=
    .writeX hi (fun s _ => toNat_setWidth_lt s (v s)) (fun h fl s => congrArg (BitVec.setWidth 64) (hv h fl s)) he
  simpa only [writeX_setWidth] using hcarried

theorem Edit.ofWriteX64 {rd : XReg} {v : State → Word} {e : State → State} (hx : x = .rv64) (hi : destX i = some rd)
    (hv : IgnoresFlags i v) (he : Edit i x e) : Edit i x fun s => Machine.writeX rd (v s) (e s) :=
  .writeX hi (fun s hs => by simp [State.bits, hs, hx, XLen.bits, (v s).isLt]) hv he

theorem Edit.ofAccrue {f : State → Flags} : Edit i x fun s => accrue (f s) s :=
  .fcsr (c := fun s => fcsrOf s.frm (s.fflags ||| (f s).bits))
    { sticky := fun _ s => by
        rw [extract_fflags_fcsrOf]
        ext k hk
        rw [BitVec.getElem_and, BitVec.getElem_or]
        exact inf_sup_self
      keeps_frm := fun _ _ => extract_frm_fcsrOf _ _
      frm_ignores_flags := fun _ _ _ => by simp }

theorem Edit.ofSetFrm {v : State → BitVec 3} (hi : writesFrm i = true) (hv : IgnoresFlags i v) :
    Edit i x fun s => setFrm (v s) s :=
  .fcsr (c := fun s => fcsrOf (v s) s.fflags)
    { sticky := fun _ s => by rw [extract_fflags_fcsrOf, BitVec.and_self]
      keeps_frm := fun h => by rw [hi] at h; cases h
      frm_ignores_flags := fun h fl s => by simp [hv h fl s] }

theorem Edit.ofSetFflags {v : State → BitVec 5} (hi : writesFflags i = true) : Edit i x fun s => setFflags (v s) s :=
  .fcsr (c := fun s => fcsrOf s.frm (v s))
    { sticky := fun h => by rw [hi] at h; cases h
      keeps_frm := fun _ _ => extract_frm_fcsrOf _ _
      frm_ignores_flags := fun _ _ _ => by simp }

theorem Edit.ofSetFcsr {v : State → BitVec 8} (hi : writesFflags i = true) (hi' : writesFrm i = true)
    (hv : IgnoresFlags i v) : Edit i x fun s => setFcsr (v s) s :=
  .fcsr
    { sticky := fun h => by rw [hi] at h; cases h
      keeps_frm := fun h => by rw [hi'] at h; cases h
      frm_ignores_flags := fun h fl s => congrArg (BitVec.extractLsb' 5 3) (hv h fl s) }

/-! ### The meanings, by the shared operation they call -/

theorem ExecForm.ofRetireX {rd : XReg} {v : ∀ s : State, BitVec s.bits} (hi : destX i = some rd)
    (hv : IgnoresFlagsX i v) : ExecForm i x fun s => retireX rd (v s) s :=
  .retires (.ofWriteX hi hv .keep)

theorem ExecForm.ofRetireX64 {rd : XReg} {v : State → Word} (hi : destX i = some rd) (hv : IgnoresFlags i v) :
    ExecForm i x fun s => when64 i s (retireX rd (v s) s) :=
  .only64 fun hx => .retires (.ofWriteX64 hx hi hv .keep)

theorem ExecForm.ofRetireWord {rd : XReg} {v : State → BitVec 32} (hi : destX i = some rd) (hv : IgnoresFlags i v) :
    ExecForm i x fun s => retireWord i rd (v s) s :=
  .ofRetireX64 hi fun h fl s => congrArg (BitVec.signExtend 64) (hv h fl s)

theorem ExecForm.ofRetireF {rd : FReg} {v : State → Word} (hi : destF i = some rd) (hv : IgnoresFlags i v) :
    ExecForm i x fun s => retireF rd (v s) s :=
  .retires (.writeF hi hv .keep)

theorem ExecForm.ofRetireS {rd : FReg} {r : State → BitVec 32 × Flags} (hi : destF i = some rd)
    (hr : IgnoresFlags i r) : ExecForm i x fun s => retireS rd (r s) s :=
  .retires (.writeF hi (fun h fl s => congrArg (box ·.1) (hr h fl s)) .ofAccrue)

theorem ExecForm.ofRetireD {rd : FReg} {r : State → BitVec 64 × Flags} (hi : destF i = some rd)
    (hr : IgnoresFlags i r) : ExecForm i x fun s => retireD rd (r s) s :=
  .retires (.writeF hi (fun h fl s => congrArg (·.1) (hr h fl s)) .ofAccrue)

theorem ExecForm.ofRetireInt {k : Nat} {rd : XReg} {r : State → BitVec k × Flags} (hi : destX i = some rd)
    (hr : IgnoresFlags i r) : ExecForm i x fun s => retireInt rd (r s) s :=
  .retires (.ofWriteX hi (fun h fl s => congrArg (·.1.signExtend s.bits) (hr h fl s)) .ofAccrue)

theorem ExecForm.ofRetireBool {rd : XReg} {r : State → Bool × Flags} (hi : destX i = some rd)
    (hr : IgnoresFlags i r) : ExecForm i x fun s => retireBool rd (r s) s :=
  .retires (.ofWriteX hi (fun h fl s => congrArg (fun p : Bool × Flags => boolBits s.bits p.1) (hr h fl s)) .ofAccrue)

theorem ExecForm.ofBranch {taken : State → Bool} {off : BitVec 13} (hi : isTransfer i = true)
    (ht : IgnoresFlags i taken) : ExecForm i x fun s => branch s (taken s) off :=
  .chooses ht (.transfers hi .keep fun _ _ _ => rfl) (.retires .keep)

theorem ExecForm.ofJump {rd : XReg} {target : ∀ s : State, BitVec s.bits} (hi : isTransfer i = true)
    (hd : destX i = some rd) (ht : IgnoresFlagsX i target) :
    ExecForm i x fun s => transfer s (writeX rd (nextPc s) s) (target s) :=
  .transfers hi (.ofWriteX hd (fun _ _ _ => rfl) .keep) ht

theorem ExecForm.ofLoad {rs1 : XReg} {imm : BitVec 12} {n : Nat} {k : BitVec (8 * n) → State → Result}
    (hk : ExecForm i x fun s => k (s.mem.readLE (effAddr s rs1 imm) n) s) :
    ExecForm i x fun s => load s (effAddr s rs1 imm) n fun v => k v s :=
  .checks (fun _ _ _ => rfl) hk

theorem ExecForm.ofLoadSigned {n : Nat} {rd rs1 : XReg} {imm : BitVec 12} (hi : destX i = some rd) :
    ExecForm i x fun s => loadSigned n rd rs1 imm s :=
  .ofLoad (.ofRetireX hi fun _ _ _ => rfl)

theorem ExecForm.ofLoadUnsigned {n : Nat} {rd rs1 : XReg} {imm : BitVec 12} (hi : destX i = some rd) :
    ExecForm i x fun s => loadUnsigned n rd rs1 imm s :=
  .ofLoad (.ofRetireX hi fun _ _ _ => rfl)

theorem ExecForm.ofLoadF {n : Nat} {rd : FReg} {rs1 : XReg} {imm : BitVec 12} {bits : BitVec (8 * n) → Word}
    (hi : destF i = some rd) : ExecForm i x fun s => load s (effAddr s rs1 imm) n fun v => retireF rd (bits v) s :=
  .ofLoad (k := fun v => retireF rd (bits v)) (.ofRetireF hi fun _ _ _ => rfl)

theorem ExecForm.ofStore {rs1 : XReg} {imm : BitVec 12} {n : Nat} {v : State → BitVec (8 * n)}
    (hi : writesMemory i = true) (hv : IgnoresFlags i v) :
    ExecForm i x fun s => store s (effAddr s rs1 imm) n (v s) :=
  .checks (fun _ _ _ => rfl) (.retires (.store hi (fun _ _ _ => rfl) hv .keep))

theorem ExecForm.ofLoadReserve {n : Nat} {rd rs1 : XReg} (hi : touchesReservation i = true)
    (hd : destX i = some rd) : ExecForm i x fun s => loadReserve n rd rs1 s :=
  .checks (fun _ _ _ => rfl) (.retires (.ofWriteX hd (fun _ _ _ => rfl) (.reserve hi fun _ _ _ => rfl)))

theorem ExecForm.ofStoreConditional {n : Nat} {rd rs1 rs2 : XReg} (hi : touchesReservation i = true)
    (hm : writesMemory i = true) (hd : destX i = some rd) :
    ExecForm i x fun s => storeConditional n rd rs1 rs2 s :=
  .checks (fun _ _ _ => rfl) (.chooses (fun _ _ _ => rfl)
    (.retires (.ofWriteX hd (fun _ _ _ => rfl)
      (.store hm (fun _ _ _ => rfl) (fun _ _ _ => rfl) (.unreserve hi fun _ _ _ => rfl))))
    (.retires (.ofWriteX hd (fun _ _ _ => rfl) (.unreserve hi fun _ _ _ => rfl))))

theorem ExecForm.ofAmo {n : Nat} {op : BitVec (8 * n) → BitVec (8 * n) → BitVec (8 * n)} {rd rs1 rs2 : XReg}
    (hm : writesMemory i = true) (hd : destX i = some rd) : ExecForm i x fun s => amo n op rd rs1 rs2 s :=
  .checks (fun _ _ _ => rfl) (.retires (.ofWriteX hd (fun _ _ _ => rfl)
    (.store hm (fun _ _ _ => rfl) (fun _ _ _ => rfl) .keep)))

end

/-- Every instruction's meaning is of these forms. -/
theorem exec_form (i : Instr) (x : XLen) : ExecForm i x (exec i) := by
  cases i with
  | lui | auipc | addi | slti | sltiu | xori | ori | andi | slli32 | srli32 | srai32 | add | sub | sll | slt | sltu
  | xor | srl | sra | or | and | mul | mulh | mulhsu | mulhu | div | divu | rem | remu | fmvXS | fclassS | fclassD =>
    exact .ofRetireX rfl fun _ _ _ => rfl
  | slli64 | srli64 | srai64 | fmvXD => exact .ofRetireX64 rfl fun _ _ _ => rfl
  | addiw | slliw | srliw | sraiw | addw | subw | sllw | srlw | sraw | mulw | divw | divuw | remw | remuw =>
    exact .ofRetireWord rfl fun _ _ _ => rfl
  | jal | jalr => exact .ofJump rfl rfl fun _ _ _ => rfl
  | beq | bne | blt | bge | bltu | bgeu => exact .ofBranch rfl fun _ _ _ => rfl
  | lb | lh | lw => exact .ofLoadSigned rfl
  | ld => exact .only64 fun _ => .ofLoadSigned rfl
  | lbu | lhu => exact .ofLoadUnsigned rfl
  | lwu => exact .only64 fun _ => .ofLoadUnsigned rfl
  | flw => exact .ofLoadF (n := 4) (bits := box) rfl
  | fld => exact .ofLoadF (n := 8) (bits := fun v => v) rfl
  | sb | sh | sw | fsw | fsd => exact .ofStore rfl fun _ _ _ => rfl
  | sd => exact .only64 fun _ => .ofStore rfl fun _ _ _ => rfl
  | fence => exact .retires .keep
  | fenceI => exact .retires (.sync rfl)
  | ecall | ebreak => exact .raises fun _ _ _ => rfl
  | lrW => exact .ofLoadReserve rfl rfl
  | lrD => exact .only64 fun _ => .ofLoadReserve rfl rfl
  | scW => exact .ofStoreConditional rfl rfl rfl
  | scD => exact .only64 fun _ => .ofStoreConditional rfl rfl rfl
  | amoswapW | amoaddW | amoxorW | amoorW | amoandW | amominW | amomaxW | amominuW | amomaxuW =>
    unfold exec; exact .ofAmo rfl rfl
  | amoswapD | amoaddD | amoxorD | amoorD | amoandD | amominD | amomaxD | amominuD | amomaxuD =>
    unfold exec; exact .only64 fun _ => .ofAmo rfl rfl
  | fsgnjS | fsgnjnS | fsgnjxS | fmvSX | fsgnjD | fsgnjnD | fsgnjxD => exact .ofRetireF rfl fun _ _ _ => rfl
  | fmvDX => exact .only64 fun _ => .ofRetireF rfl fun _ _ _ => rfl
  | fminS | fmaxS => exact .ofRetireS rfl fun _ _ _ => rfl
  | fminD | fmaxD => exact .ofRetireD rfl fun _ _ _ => rfl
  | fleS | fltS | feqS | fleD | fltD | feqD => exact .ofRetireBool rfl fun _ _ _ => rfl
  | fmaddS | fmsubS | fnmsubS | fnmaddS | faddS | fsubS | fmulS | fdivS | fsqrtS | fcvtSW | fcvtSWu =>
    exact .rounds fun _ => .ofRetireS rfl fun _ _ _ => rfl
  | fmaddD | fmsubD | fnmsubD | fnmaddD | faddD | fsubD | fmulD | fdivD | fsqrtD | fcvtDW | fcvtDWu =>
    exact .rounds fun _ => .ofRetireD rfl fun _ _ _ => rfl
  | fcvtWS | fcvtWuS | fcvtWD | fcvtWuD => exact .rounds fun _ => .ofRetireInt rfl fun _ _ _ => rfl
  | fcvtLS | fcvtLuS | fcvtLD | fcvtLuD =>
    exact .only64 fun _ => .rounds fun _ => .ofRetireInt rfl fun _ _ _ => rfl
  | fcvtSL | fcvtSLu => exact .only64 fun _ => .rounds fun _ => .ofRetireS rfl fun _ _ _ => rfl
  | fcvtDL | fcvtDLu => exact .only64 fun _ => .rounds fun _ => .ofRetireD rfl fun _ _ _ => rfl
  -- the eight of `fcsr`: those that return the flags need not ignore them
  | frrm => exact .ofRetireX rfl fun _ fl s => congrArg (BitVec.setWidth s.bits) (frm_setFflags fl s)
  | frcsr | frflags => exact .ofRetireX rfl fun h => nomatch h
  | fscsr => exact .retires (.ofWriteX rfl (fun h => nomatch h) (.ofSetFcsr rfl rfl fun _ _ _ => rfl))
  | fsrm | fsrmi =>
    exact .retires (.ofWriteX rfl (fun _ fl s => congrArg (BitVec.setWidth s.bits) (frm_setFflags fl s))
      (.ofSetFrm rfl fun _ _ _ => rfl))
  | fsflags | fsflagsi => exact .retires (.ofWriteX rfl (fun h => nomatch h) (.ofSetFflags rfl))

end Sys2Proof.Machine
end

section
/-! What an edit leaves unchanged, and the three ways in which an instruction ends. -/

namespace Sys2Proof.Machine

section
variable {i : Instr} {x : XLen} {e : State → State}

theorem Edit.params_eq (h : Edit i x e) (s : State) : (e s).params = s.params := by
  induction h with
  | keep | fcsr | sync | reserve | unreserve => rfl
  | store _ _ _ _ ih | writeX _ _ _ _ ih | writeF _ _ _ ih => exact ih

theorem Edit.pc_eq (h : Edit i x e) (s : State) : (e s).pc = s.pc := by
  induction h with
  | keep | fcsr | sync | reserve | unreserve => rfl
  | store _ _ _ _ ih | writeX _ _ _ _ ih | writeF _ _ _ ih => exact ih

theorem Edit.run_eq (h : Edit i x e) (s : State) : (e s).run = s.run := by
  induction h with
  | keep | fcsr | sync | reserve | unreserve => rfl
  | store _ _ _ _ ih | writeX _ _ _ _ ih | writeF _ _ _ ih => exact ih

theorem Edit.readX_eq (h : Edit i x e) (s : State) {r : XReg} (hr : destX i ≠ some r) :
    readX 64 (e s) r = readX 64 s r := by
  induction h with
  | keep | fcsr | sync | reserve | unreserve => rfl
  | store _ _ _ _ ih | writeF _ _ _ ih => exact ih
  | writeX hi _ _ _ ih =>
    rw [readX_writeX, if_neg, ih]
    rintro ⟨rfl, -⟩
    exact hr hi

theorem Edit.readF_eq (h : Edit i x e) (s : State) {r : FReg} (hr : destF i ≠ some r) :
    readF (e s) r = readF s r := by
  induction h with
  | keep | fcsr | sync | reserve | unreserve => rfl
  | store _ _ _ _ ih | writeX _ _ _ _ ih => exact ih
  | writeF hi _ _ ih =>
    rw [readF_writeF, if_neg, ih]
    rintro rfl
    exact hr hi

theorem Edit.fflags_sticky (h : Edit i x e) (s : State) (hi : writesFflags i = false) :
    s.fflags &&& (e s).fflags = s.fflags := by
  induction h with
  | keep | sync | reserve | unreserve => exact BitVec.and_self
  | fcsr hc => exact hc.sticky hi s
  | store _ _ _ _ ih | writeX _ _ _ _ ih | writeF _ _ _ ih => exact ih

theorem Edit.frm_eq (h : Edit i x e) (s : State) (hi : writesFrm i = false) : (e s).frm = s.frm := by
  induction h with
  | keep | sync | reserve | unreserve => rfl
  | fcsr hc => exact hc.keeps_frm hi s
  | store _ _ _ _ ih | writeX _ _ _ _ ih | writeF _ _ _ ih => exact ih

end

/-- What an instruction can make of a state: a trap and nothing else, an edit and the next instruction, or, for a jump
or a branch, an edit and an aligned target. -/
inductive Successor (i : Instr) (s : State) : State → Prop where
  | traps (tr : Trap) : Successor i s (takeTrap tr s)
  | advances {e : State → State} (he : Edit i s.params.xlen e) : Successor i s (advance (e s))
  | goes {e : State → State} {target : BitVec s.bits} (hi : isTransfer i = true) (he : Edit i s.params.xlen e)
      (haligned : target.extractLsb' 0 2 = 0) : Successor i s (setPc target (e s))

theorem ExecForm.successor {i : Instr} {s t : State} {f : State → Result} (h : ExecForm i s.params.xlen f)
    (ht : f s = .next t) : Successor i s t := by
  induction h with
  | raises => cases ht; exact .traps _
  | retires he => cases ht; exact .advances he
  | @transfers _ target hi he =>
    beta_reduce at ht
    by_cases haligned : (target s).extractLsb' 0 2 = 0
    · rw [transfer_of_aligned _ _ haligned] at ht; cases ht; exact .goes hi he haligned
    · rw [transfer_of_misaligned _ _ haligned] at ht; cases ht; exact .traps _
  | @checks trap _ _ _ ih =>
    beta_reduce at ht
    cases htrap : trap s with
    | some tr => rw [htrap, orElse_some] at ht; cases ht; exact .traps _
    | none => rw [htrap, orElse_none] at ht; exact ih ht
  | chooses _ _ _ ihf ihg =>
    beta_reduce at ht
    split at ht
    · exact ihf ht
    · exact ihg ht
  | only64 _ ih =>
    beta_reduce at ht
    cases hx : s.params.xlen with
    | rv32 => rw [when64_of_rv32 _ hx] at ht; cases ht; exact .traps _
    | rv64 => rw [when64_of_rv64 _ hx] at ht; exact ih hx ht
  | @rounds rm _ _ ih =>
    beta_reduce at ht
    cases hmode : resolveRm rm s.frm with
    | some mode => rw [withMode_of_some _ hmode] at ht; exact ih mode ht
    | none => rw [withMode_of_none _ hmode] at ht; cases ht; exact .traps _

/-- SAY ONCE WHAT AN INSTRUCTION CAN DO: if it answers a next state, that is one of its three kinds of successor. -/
theorem exec_successor {i : Instr} {s t : State} (h : exec i s = .next t) : Successor i s t :=
  (exec_form i s.params.xlen).successor h

/-- What a step can do: take a trap, or execute an instruction and bring the record of its LR/SC loop up to date. -/
theorem step_cases {s t : State} (h : step s = .next t) :
    (∃ tr, t = takeTrap tr s) ∨ ∃ i u l, exec i s = .next u ∧ t = setLoop l u := by
  unfold step at h
  split at h
  · cases h
  · split at h
    · cases h; exact .inl ⟨_, rfl⟩
    · cases h
    · split at h
      · obtain ⟨u, hu, rfl⟩ := followLoop_cases h
        exact .inr ⟨_, u, _, hu, rfl⟩
      · cases h; exact .inl ⟨_, rfl⟩

end Sys2Proof.Machine
end

section
/-! The invariant, through each operation on the state (`10_state.md` R21, R25, R34, R35). -/

namespace Sys2Proof.Machine

section
variable {s : State} (h : Inv s)
include h

theorem Inv.takeTrap (tr : Trap) : Inv (takeTrap tr s) := { h with }

theorem Inv.setLoop (l : Option RetryLoop) : Inv (setLoop l s) := { h with }

theorem Inv.setFcsr (v : BitVec 8) : Inv (setFcsr v s) := { h with }

theorem Inv.writeF (rd : FReg) (v : Word) : Inv (writeF rd v s) := { h with }

theorem Inv.syncFetch : Inv (syncFetch s) :=
  { h with
    stale_sorted := rfl
    stale_below := fun _ ha => nomatch ha }

theorem Inv.endReservation (addr n : Nat) : Inv (endReservation addr n s) :=
  { h with reservation_aligned := fun _ hr => nomatch hr }

theorem Inv.storeBytes {w : Nat} (hw : w ≤ s.bits) (addr : BitVec w) (n : Nat) (v : BitVec (8 * n)) :
    Inv (storeBytes addr n v s) := by
  have hbelow : ∀ a ∈ accessBytes addr n, a < 2 ^ s.bits := fun a ha =>
    (lt_of_mem_accessBytes ha).trans_le (Nat.pow_le_pow_right (by decide) hw)
  exact
    { h with
      mem_wf := Memory.wf_writeLE h.mem_wf addr n v
      mem_below := fun c hc => (Memory.mem_writeBytes _ _ hc).elim (hbelow c.1) (h.mem_below c)
      stale_sorted := addrSorted_addrInsertAll h.stale_sorted
      stale_below := fun a ha => (mem_addrInsertAll.mp ha).elim (h.stale_below a) (hbelow a) }

theorem Inv.writeX (rd : XReg) {v : Word} (hv : v.toNat < 2 ^ s.bits) : Inv (writeX rd v s) := by
  by_cases hrd : rd.num = 0
  · have hsame : Machine.writeX rd v s = s := by simp [Machine.writeX, setX, hrd]
    rwa [hsame]
  · have hxs : (Machine.writeX rd v s).xs = s.xs.set rd.num.toNat v rd.num.isLt := by
      rw [writeX_xs, setX, if_neg hrd, BitVec.setWidth_eq]
    refine { h with x0_zero := ?_, xs_fit := fun k hk => ?_ }
    · have hne : rd.num.toNat ≠ 0 := fun h0 => hrd (BitVec.eq_of_toNat_eq h0)
      simp only [hxs, Vector.getElem_set_ne rd.num.isLt (by decide) hne, h.x0_zero]
    · simp only [hxs, Vector.getElem_set]
      split
      · exact hv
      · exact h.xs_fit k hk

end

/-- The set an LR reserves is naturally aligned and inside the address space (`43_a_atomics.md` R261): `RES_GRAIN` is a
power of two that divides the size of the address space. -/
theorem reservationSet_aligned {p : Params} (hp : p.wf = true) {addr : Nat} (ha : addr < 2 ^ p.xlen.bits) :
    (reservationSet p addr).size = p.resGrain ∧ (reservationSet p addr).base % (reservationSet p addr).size = 0 ∧
      (reservationSet p addr).base + (reservationSet p addr).size ≤ 2 ^ p.xlen.bits := by
  have hgrain : p.resGrainLog2 ≤ p.xlen.bits := by
    simp only [Params.wf, Bool.and_eq_true, decide_eq_true_eq] at hp
    exact hp.2
  have hdvd : p.resGrain ∣ 2 ^ p.xlen.bits := Nat.pow_dvd_pow 2 hgrain
  refine ⟨rfl, Nat.mul_mod_left _ _, ?_⟩
  calc addr / p.resGrain * p.resGrain + p.resGrain
      = (addr / p.resGrain + 1) * p.resGrain := (Nat.succ_mul _ _).symm
    _ ≤ 2 ^ p.xlen.bits / p.resGrain * p.resGrain :=
        Nat.mul_le_mul_right _ (Nat.div_lt_div_of_lt_of_dvd hdvd ha)
    _ = 2 ^ p.xlen.bits := Nat.div_mul_cancel hdvd

theorem Inv.reserve {s : State} (h : Inv s) (addr : BitVec s.bits) :
    Inv (reserve (reservationSet s.params addr.toNat) s) :=
  { h with
    reservation_aligned := fun _ hr => Option.some.inj hr ▸ reservationSet_aligned h.params_wf addr.isLt }

theorem Inv.setPc {s : State} (h : Inv s) {w : Nat} (hw : w ≤ s.bits) {target : BitVec w}
    (haligned : target.toNat % 4 = 0) : Inv (setPc target s) := by
  have hw64 : w ≤ 64 := by rcases bits_cases s with hb | hb <;> omega
  have hpc : (Machine.setPc target s).pc.toNat = target.toNat := by
    rw [setPc_pc, BitVec.toNat_setWidth_of_le hw64]
  exact
    { h with
      pc_fits := hpc ▸ target.isLt.trans_le (Nat.pow_le_pow_right (by decide) hw)
      pc_aligned := hpc ▸ haligned }

/-- `pc + 4` is a multiple of 4 if `pc` is, also where it wraps: 4 divides `2^XLEN` (`10_state.md` R24, R25). -/
theorem nextPc_aligned {s : State} (h : s.pc.toNat % 4 = 0) : (nextPc s).toNat % 4 = 0 := by
  have h4 : (4 : BitVec s.bits).toNat = 4 := by rcases bits_cases s with hb | hb <;> rw [hb] <;> rfl
  simp only [nextPc, readPc, BitVec.toNat_add, BitVec.toNat_setWidth, h4]
  rcases bits_cases s with hb | hb <;> rw [hb] <;> omega

theorem Inv.advance {s : State} (h : Inv s) : Inv (advance s) := h.setPc le_rfl (nextPc_aligned h.pc_aligned)

/-- Bits 1:0 clear is a multiple of 4. -/
theorem toNat_mod_four_of_extract {w : Nat} {target : BitVec w} (h : target.extractLsb' 0 2 = 0) :
    target.toNat % 4 = 0 := by
  simpa [BitVec.extractLsb'_toNat] using congrArg BitVec.toNat h

theorem Edit.inv {i : Instr} {e : State → State} {s : State} (h : Edit i s.params.xlen e) (hs : Inv s) :
    Inv (e s) := by
  induction h with
  | keep => exact hs
  | fcsr => exact hs.setFcsr _
  | sync => exact hs.syncFetch
  | reserve => exact hs.reserve _
  | unreserve => exact hs.endReservation _ _
  | store _ _ _ he ih => exact ih.storeBytes (bits_congr (he.params_eq s)).ge _ _ _
  | writeX _ hfit _ he ih => exact ih.writeX _ (bits_congr (he.params_eq s) ▸ hfit s rfl)
  | writeF _ _ _ ih => exact ih.writeF _ _

theorem Successor.inv {i : Instr} {s t : State} (h : Successor i s t) (hs : Inv s) : Inv t := by
  cases h with
  | traps => exact hs.takeTrap _
  | advances he => exact (he.inv hs).advance
  | goes _ he haligned =>
    exact (he.inv hs).setPc (bits_congr (he.params_eq s)).ge (toNat_mod_four_of_extract haligned)

end Sys2Proof.Machine
end

section
/-! Two runs from states that differ in `fflags` only (`10_state.md` R32, `60_exceptions.md` R428). -/

namespace Sys2Proof.Machine

/-- If the first answers a next state, the second answers that state but for the flags. -/
def SameButFlags (r r' : Result) : Prop := ∀ t, r = .next t → ∃ fl, r' = .next (setFflags fl t)

theorem sameButFlags_next (s : State) (fl : BitVec 5) : SameButFlags (.next s) (.next (setFflags fl s)) := by
  intro t ht
  cases ht
  exact ⟨fl, rfl⟩

theorem sameButFlags_transfer {w : Nat} {s u u' : State} {fl fl' : BitVec 5} {target target' : BitVec w}
    (hu : u' = setFflags fl' u) (htarget : target' = target) :
    SameButFlags (transfer s u target) (transfer (setFflags fl s) u' target') := by
  subst hu htarget
  by_cases haligned : target'.extractLsb' 0 2 = 0
  · rw [transfer_of_aligned _ _ haligned, transfer_of_aligned _ _ haligned]
    exact sameButFlags_next (setPc target' u) fl'
  · rw [transfer_of_misaligned _ _ haligned, transfer_of_misaligned _ _ haligned]
    exact sameButFlags_next _ fl

theorem sameButFlags_orElse (tr : Option Trap) (s : State) (fl : BitVec 5) {k k' : Result} (hk : SameButFlags k k') :
    SameButFlags (orElse tr s k) (orElse tr (setFflags fl s) k') := by
  cases tr with
  | some tr => exact sameButFlags_next (takeTrap tr s) fl
  | none => exact hk

theorem sameButFlags_when64 (i : Instr) (s : State) (fl : BitVec 5) {k k' : Result}
    (hk : s.params.xlen = .rv64 → SameButFlags k k') :
    SameButFlags (when64 i s k) (when64 i (setFflags fl s) k') := by
  cases hx : s.params.xlen with
  | rv32 =>
    rw [when64_of_rv32 k hx, when64_of_rv32 (s := setFflags fl s) k' hx]
    exact sameButFlags_next _ fl
  | rv64 =>
    rw [when64_of_rv64 k hx, when64_of_rv64 (s := setFflags fl s) k' hx]
    exact hk hx

theorem sameButFlags_withMode (i : Instr) (rm : BitVec 3) (s : State) (fl : BitVec 5) {k k' : RoundingMode → Result}
    (hk : ∀ mode, SameButFlags (k mode) (k' mode)) :
    SameButFlags (withMode i rm s k) (withMode i rm (setFflags fl s) k') := by
  unfold withMode
  rw [frm_setFflags]
  cases resolveRm rm s.frm with
  | some mode => exact hk mode
  | none => exact sameButFlags_next _ fl

/-- Two values of `fcsr` with the same `frm` differ in the flags only. -/
theorem setFcsr_eq_setFflags {c c' : BitVec 8} (h : c'.extractLsb' 5 3 = c.extractLsb' 5 3) (s : State) :
    setFcsr c' s = setFflags (c'.extractLsb' 0 5) (setFcsr c s) := by
  have hfields : c' = fcsrOf (c.extractLsb' 5 3) (c'.extractLsb' 0 5) := by rw [← h, fcsrOf_fields]
  exact congrArg (setFcsr · s) hfields

theorem Edit.ignores_flags {i : Instr} {x : XLen} {e : State → State} (h : Edit i x e) (hi : readsFflags i = false)
    (fl : BitVec 5) (s : State) : ∃ fl', e (setFflags fl s) = setFflags fl' (e s) := by
  induction h with
  | keep | sync => exact ⟨fl, rfl⟩
  | fcsr hc => exact ⟨_, setFcsr_eq_setFflags (hc.frm_ignores_flags hi fl s) s⟩
  | reserve _ ha =>
    exact ⟨fl, congrArg (fun a : BitVec s.bits =>
      Machine.reserve (reservationSet s.params a.toNat) (setFflags fl s)) (ha hi fl s)⟩
  | unreserve _ ha =>
    exact ⟨fl, congrArg (fun a : BitVec s.bits => endReservation a.toNat _ (setFflags fl s)) (ha hi fl s)⟩
  | store _ ha hv _ ih =>
    obtain ⟨fl', he⟩ := ih
    beta_reduce
    rw [he, hv hi fl s]
    exact ⟨fl', congrArg (fun a : BitVec s.bits => storeBytes a _ _ (setFflags fl' _)) (ha hi fl s)⟩
  | writeX _ _ hv _ ih | writeF _ hv _ ih =>
    obtain ⟨fl', he⟩ := ih
    beta_reduce
    rw [he, hv hi fl s]
    exact ⟨fl', rfl⟩

theorem ExecForm.ignores_flags {i : Instr} {s : State} {f : State → Result} (h : ExecForm i s.params.xlen f)
    (hi : readsFflags i = false) (fl : BitVec 5) : SameButFlags (f s) (f (setFflags fl s)) := by
  induction h with
  | raises hinfo => beta_reduce; rw [hinfo hi fl s]; exact sameButFlags_next _ fl
  | @retires e he =>
    obtain ⟨fl', hfl'⟩ := he.ignores_flags hi fl s
    beta_reduce
    rw [hfl']
    exact sameButFlags_next (advance (e s)) fl'
  | @transfers e target _ he htarget =>
    obtain ⟨fl', hfl'⟩ := he.ignores_flags hi fl s
    exact sameButFlags_transfer hfl' (htarget hi fl s)
  | @checks trap _ htrap _ ih => beta_reduce; rw [htrap hi fl s]; exact sameButFlags_orElse (trap s) s fl ih
  | chooses hb _ _ ihf ihg =>
    beta_reduce
    rw [hb hi fl s]
    split
    · exact ihf
    · exact ihg
  | only64 _ ih => exact sameButFlags_when64 i s fl ih
  | rounds _ ih => exact sameButFlags_withMode i _ s fl ih

/-- An instruction that is none of the five does not return the flags. -/
theorem readsFflags_eq_false {i : Instr}
    (h : ∀ (rd rs1 : XReg) (uimm : BitVec 5), i ≠ .frcsr rd ∧ i ≠ .frflags rd ∧ i ≠ .fscsr rd rs1 ∧
      i ≠ .fsflags rd rs1 ∧ i ≠ .fsflagsi rd uimm) : readsFflags i = false := by
  by_contra hreads
  cases i with
  | frcsr rd => obtain ⟨hne, -⟩ := h rd rd 0; exact hne rfl
  | frflags rd => obtain ⟨-, hne, -⟩ := h rd rd 0; exact hne rfl
  | fscsr rd rs1 => obtain ⟨-, -, hne, -⟩ := h rd rs1 0; exact hne rfl
  | fsflags rd rs1 => obtain ⟨-, -, -, hne, -⟩ := h rd rs1 0; exact hne rfl
  | fsflagsi rd uimm => obtain ⟨-, -, -, -, hne⟩ := h rd rd uimm; exact hne rfl
  | _ => exact hreads rfl

end Sys2Proof.Machine
end

section
/-! Where `pc` goes (`10_state.md` R24, `40_rv32i.md` R161, R165). -/

namespace Sys2Proof.Machine

/-- `pc + 4` depends on `pc` and `XLEN` only. -/
theorem nextPc_congr {s u : State} (hparams : u.params = s.params) (hpc : u.pc = s.pc) :
    (nextPc u).setWidth 64 = (nextPc s).setWidth 64 := by
  cases s
  cases u
  dsimp only at hparams hpc
  subst hparams hpc
  rfl

/-- The target of a jump or a branch, over integers. -/
theorem pcPlus_eq_ofInt {n : Nat} (s : State) (off : BitVec n) :
    pcPlus s off = BitVec.ofInt s.bits ((readPc s.bits s).toNat + off.toInt) := by
  rw [BitVec.ofInt_add, BitVec.ofInt_natCast, BitVec.ofNat_toNat, BitVec.setWidth_eq]
  rfl

/-- On a running hart: `pc` stays where the hart stops, and is `pc + 4` after an instruction that is no transfer. -/
theorem Successor.pc_of_running {i : Instr} {s t : State} (h : Successor i s t) (hrun : s.run = .running) :
    (t.run ≠ .running → t.pc = s.pc) ∧ (t.run = .running → isTransfer i = false → PcAdvances s t) := by
  cases h with
  | traps => exact ⟨fun _ => rfl, fun h => nomatch h⟩
  | advances he =>
    exact ⟨fun h => absurd ((he.run_eq s).trans hrun) h, fun _ _ => nextPc_congr (he.params_eq s) (he.pc_eq s)⟩
  | goes hi he =>
    exact ⟨fun h => absurd ((he.run_eq s).trans hrun) h, fun _ hi' => by rw [hi] at hi'; cases hi'⟩

/-- The six conditional branches are `branch` of some condition. -/
theorem exec_branch {rs1 rs2 : XReg} {off : BitVec 13} {i : Instr}
    (hi : i ∈ [Instr.beq rs1 rs2 off, .bne rs1 rs2 off, .blt rs1 rs2 off, .bge rs1 rs2 off, .bltu rs1 rs2 off,
      .bgeu rs1 rs2 off]) (s : State) : ∃ taken, exec i s = branch s taken off := by
  simp only [List.mem_cons, List.not_mem_nil, or_false] at hi
  rcases hi with rfl | rfl | rfl | rfl | rfl | rfl <;> exact ⟨_, rfl⟩

/-- A branch that runs on falls through or is at its target. -/
theorem branch_pc {n : Nat} {s t : State} {taken : Bool} {off : BitVec n} (h : branch s taken off = .next t)
    (ht : t.run = .running) : PcAdvances s t ∨ t.pc = (pcPlus s off).setWidth 64 := by
  rcases branch_cases s taken off with ⟨-, hb⟩ | ⟨-, -, hb⟩ | ⟨-, -, hb⟩ <;> rw [hb] at h <;> cases h
  · exact .inl rfl
  · exact .inr rfl
  · cases ht

/-- A transfer that runs on is at its target. -/
theorem transfer_pc {w : Nat} {s u t : State} {target : BitVec w} (h : transfer s u target = .next t)
    (ht : t.run = .running) : t.pc = target.setWidth 64 := by
  by_cases haligned : target.extractLsb' 0 2 = 0
  · rw [transfer_of_aligned _ _ haligned] at h; cases h; rfl
  · rw [transfer_of_misaligned _ _ haligned] at h; cases h; cases ht

end Sys2Proof.Machine
end

section
/-! The statements about the state (`10_state.md`). -/

namespace Sys2Proof.Proofs

open Sys2Proof.Machine

/-- Settles O13: a step takes a trap or executes an instruction, and every successor of an instruction keeps the
invariant because every edit does. -/
theorem stepKeepsInvariant : Obligations.StepKeepsInvariant := by
  intro s t hs hstep
  rcases step_cases hstep with ⟨tr, rfl⟩ | ⟨i, u, l, hexec, rfl⟩
  · exact hs.takeTrap tr
  · exact ((exec_successor hexec).inv hs).setLoop l

/-- Settles O16: the first clause from the successors of an instruction, the others from `branch` and `transfer`. -/
theorem pcAdvancesUnlessTransfer : Obligations.PcAdvancesUnlessTransfer := by
  refine ⟨fun i s t hrun hexec => (exec_successor hexec).pc_of_running hrun,
    fun rs1 rs2 off i s t hi _ hexec ht => ?_, fun rd off s t _ hexec ht => ?_⟩
  · obtain ⟨taken, hbranch⟩ := exec_branch hi s
    rw [← pcPlus_eq_ofInt]
    exact branch_pc (hbranch ▸ hexec) ht
  · have hjal : transfer s (writeX rd (nextPc s) s) (pcPlus s off) = .next t := hexec
    rw [← pcPlus_eq_ofInt]
    exact transfer_pc hjal ht

/-- Settles O17: an edit writes no register but the instruction's destinations; moving `pc` and trapping write none. -/
theorem onlyDestinationsChange : Obligations.OnlyDestinationsChange := by
  intro i s t hexec
  cases exec_successor hexec with
  | traps => exact ⟨fun _ _ => rfl, readX_x0 64 _, fun _ _ => rfl, rfl⟩
  | advances he | goes _ he =>
    exact ⟨fun _ => he.readX_eq s, readX_x0 64 _, fun _ => he.readF_eq s, he.params_eq s⟩

/-- Settles O20: an edit clears no flag and keeps `frm` but in the instructions that write them. -/
theorem flagsAreSticky : Obligations.FlagsAreSticky := by
  intro i s t hexec
  cases exec_successor hexec with
  | traps => exact ⟨fun _ => BitVec.and_self, fun _ => rfl⟩
  | advances he | goes _ he => exact ⟨he.fflags_sticky s, he.frm_eq s⟩

/-- Settles O21: every value an instruction uses ignores the flags, unless it is one of the five that return them. -/
theorem flagsReadOnlyByAccess : Obligations.FlagsReadOnlyByAccess := by
  intro i s t fl hi hexec
  exact (exec_form i s.params.xlen).ignores_flags (readsFflags_eq_false hi) fl t hexec

/-- Settles O22: `x0` reads as zero in every state, and a write to it is discarded. -/
theorem zeroRegister : Obligations.ZeroRegister :=
  ⟨readX_x0, fun _ _ _ => rfl, fun _ s t _ => readX_x0 s.bits t⟩

end Sys2Proof.Proofs
end

section
/-! What an edit leaves of memory and of the stale addresses (`20_memory.md` R80, R92). -/

namespace Sys2Proof.Machine

section
variable {i : Instr} {x : XLen} {e : State → State}

theorem Edit.mem_eq (h : Edit i x e) (s : State) (hi : writesMemory i = false) : (e s).mem = s.mem := by
  induction h with
  | keep | fcsr | sync | reserve | unreserve => rfl
  | store hwrites => rw [hi] at hwrites; cases hwrites
  | writeX _ _ _ _ ih | writeF _ _ _ ih => exact ih

theorem Edit.stale_eq (h : Edit i x e) (s : State) (hi : writesMemory i = false) (hfence : i ≠ .fenceI) :
    (e s).stale = s.stale := by
  induction h with
  | keep | fcsr | reserve | unreserve => rfl
  | sync hsync => exact absurd hsync hfence
  | store hwrites => rw [hi] at hwrites; cases hwrites
  | writeX _ _ _ _ ih | writeF _ _ _ ih => exact ih

end

end Sys2Proof.Machine
end

section
/-! Values in memory, byte by byte and part by part (`20_memory.md` R62). -/

namespace Sys2Proof.Machine

/-- LOAD, BYTE BY BYTE: bits `8k+7 : 8k` of a loaded value are the byte at `addr + k` (R62). -/
theorem Memory.extractLsb'_readLE {w n k : Nat} (m : Memory) (addr : BitVec w) (hk : k < n) :
    (m.readLE addr n).extractLsb' (8 * k) 8 = m.read (addr + BitVec.ofNat w k).toNat := by
  apply BitVec.eq_of_getLsbD_eq
  intro i hi
  have hdiv : (8 * k + i) / 8 = k := by omega
  have hmod : (8 * k + i) % 8 = i := by omega
  rw [BitVec.getLsbD_extractLsb', Memory.getLsbD_readLE _ _ _ _ (by omega), hdiv, hmod]
  simp [hi]

/-- STORE, THEN LOAD A PART: the `k` bytes from offset `j` of a stored value are its bits `8(j+k)-1 : 8j` (R62). -/
theorem Memory.readLE_writeLE {w n j k : Nat} (m : Memory) (addr : BitVec w) (v : BitVec (8 * n)) (hn : n ≤ 2 ^ w)
    (hpart : j + k ≤ n) :
    (m.writeLE addr n v).readLE (addr + BitVec.ofNat w j) k = v.extractLsb' (8 * j) (8 * k) := by
  apply BitVec.eq_of_getLsbD_eq
  intro i hi
  have hbit : 8 * (j + i / 8) + i % 8 = 8 * j + i := by omega
  have hmod : i % 8 < 8 := Nat.mod_lt i (by decide)
  rw [Memory.getLsbD_readLE _ _ _ _ hi, BitVec.add_assoc, ← BitVec.ofNat_add,
    Memory.read_writeLE m addr n v hn _ (by omega), BitVec.getLsbD_extractLsb', BitVec.getLsbD_extractLsb', hbit]
  simp [hi, hmod]

/-- An access of 1, 2, 4 or 8 bytes is no longer than a 32-bit or 64-bit address space. -/
theorem accessSize_le_addressSpace {w n : Nat} (hw : w ∈ [32, 64]) (hn : n ∈ [1, 2, 4, 8]) : n ≤ 2 ^ w := by
  have hall : ∀ w ∈ [32, 64], ∀ n ∈ [1, 2, 4, 8], n ≤ 2 ^ w := by decide
  exact hall w hw n hn

end Sys2Proof.Machine
end

section
/-! The statements about memory (`20_memory.md`). -/

namespace Sys2Proof.Proofs

open Sys2Proof.Machine

/-- Settles O18: no edit but a store's writes memory, and none but a store's and FENCE.I's changes the stale addresses;
moving `pc` and trapping touch neither. -/
theorem onlyStoresWriteMemory : Obligations.OnlyStoresWriteMemory := by
  intro i s t hexec hi
  cases exec_successor hexec with
  | traps => exact ⟨rfl, fun _ => rfl⟩
  | advances he | goes _ he => exact ⟨he.mem_eq s hi, he.stale_eq s hi⟩

/-- Settles O23: the bytes of a write and of a read, and the mixed-width reads as parts of the word written. -/
theorem littleEndianMemory : Obligations.LittleEndianMemory := by
  refine ⟨fun w n m addr v hw hn => ⟨fun k hk => ?_, fun a ha => ?_, fun k hk => ?_⟩, fun w m a hw => ?_⟩
  · exact Memory.read_writeLE m addr n v (accessSize_le_addressSpace hw hn) k hk
  · exact Memory.read_writeLE_of_not_mem m addr n v a ha
  · exact Memory.extractLsb'_readLE m addr hk
  · have hpart : ∀ j k, j + k ≤ 4 → (m.writeLE a 4 (0x11223344 : BitVec 32)).readLE (a + BitVec.ofNat w j) k =
        (0x11223344 : BitVec 32).extractLsb' (8 * j) (8 * k) := fun j k =>
      Memory.readLE_writeLE m a _ (accessSize_le_addressSpace hw (by decide))
    have hstart : a + BitVec.ofNat w 0 = a := BitVec.add_zero a
    have hbyte0 := hpart 0 1 (by decide)
    have hhalf0 := hpart 0 2 (by decide)
    rw [hstart] at hbyte0 hhalf0
    exact ⟨hbyte0, hpart 1 1 (by decide), hpart 2 2 (by decide), hhalf0⟩

/-- Settles O35: the meaning of each load and store is `orElse` of its access's trap at the effective address. -/
theorem accessTraps : Obligations.AccessTraps := by
  intro s rd rs1 rs2 fr imm
  refine ⟨?lb, ?lbu, ?lh, ?lhu, ?lw, ?flw, ?fld, ?sb, ?sh, ?sw, ?fsw, ?fsd, fun hx => ⟨?lwu, ?ld, ?sd⟩⟩
  case lb | lbu | lh | lhu | lw | flw | fld | sb | sh | sw | fsw | fsd => exact accessRaises_of_orElse rfl
  case lwu | ld | sd => exact accessRaises_of_orElse (when64_of_rv64 _ hx)

/-- Settles O44: the meaning of each atomic is `orElse` of its access's trap at `x[rs1]`, so an SC traps before the
reservation and the oracle are looked at. -/
theorem atomicTraps : Obligations.AtomicTraps := by
  intro s aq rl rd rs1 rs2
  refine ⟨?lrW, ?scW, fun i hi => ?amoW, fun hx => ⟨?lrD, ?scD, fun i hi => ?amoD⟩⟩
  case lrW | scW => exact accessRaises_of_orElse rfl
  case lrD | scD => exact accessRaises_of_orElse (when64_of_rv64 _ hx)
  case amoW =>
    simp only [List.mem_cons, List.not_mem_nil, or_false] at hi
    rcases hi with rfl | rfl | rfl | rfl | rfl | rfl | rfl | rfl | rfl <;> exact accessRaises_of_orElse rfl
  case amoD =>
    simp only [List.mem_cons, List.not_mem_nil, or_false] at hi
    rcases hi with rfl | rfl | rfl | rfl | rfl | rfl | rfl | rfl | rfl <;>
      exact accessRaises_of_orElse (when64_of_rv64 _ hx)

end Sys2Proof.Proofs
end

section
/-! The pieces of a word: a word is the union of its fields, and the pieces of a split immediate are the fields it was
assembled from (`30_encoding.md` R111, R112, R117, R118, R120). -/

namespace Sys2Proof

/-- A field put back where it was read keeps the bits of the word there, and no other. -/
theorem place_field (w : InstWord) (lo k : Nat) : place lo (field w lo k) = w &&& place lo (BitVec.allOnes k) := by
  apply BitVec.eq_of_getLsbD_eq
  intro i hi
  rw [BitVec.getLsbD_and, getLsbD_place, getLsbD_place, getLsbD_field, BitVec.getLsbD_allOnes]
  by_cases hlo : lo ≤ i
  · simp [hi, hlo, Bool.and_comm]
  · simp [hlo]

/-- A bit put back is the field of that one bit put back. -/
theorem placeBit_getLsbD (w : InstWord) (lo : Nat) : placeBit lo (w.getLsbD lo) = place lo (field w lo 1) := by
  refine congrArg (place lo) (BitVec.eq_of_getLsbD_eq fun i hi => ?_)
  obtain rfl : i = 0 := by omega
  rw [getLsbD_field, BitVec.getLsbD_ofBool]
  simp

/-- A union of masks that together cover the word loses nothing of it. -/
theorem and_eq_self_of_covers (w : InstWord) {m : InstWord} (h : m = BitVec.allOnes 32) : w &&& m = w := by
  rw [h, BitVec.and_allOnes]

/-! ### The pieces of an immediate are the fields it was assembled from -/

section
open BitVec

theorem immS_extract_5_7 (w : InstWord) : (immS w).extractLsb' 5 7 = field w 25 7 := by
  unfold immS
  rw [extractLsb'_append_eq_of_le (by decide)]
  exact extractLsb'_eq_self

theorem immS_extract_0_5 (w : InstWord) : (immS w).extractLsb' 0 5 = field w 7 5 := by
  unfold immS
  rw [extractLsb'_append_eq_of_add_le (by decide)]
  exact extractLsb'_eq_self

theorem immB_extract_12_1 (w : InstWord) : (immB w).extractLsb' 12 1 = field w 31 1 := by
  unfold immB
  iterate 4 rw [extractLsb'_append_eq_of_le (by decide)]
  exact extractLsb'_eq_self

theorem immB_extract_11_1 (w : InstWord) : (immB w).extractLsb' 11 1 = field w 7 1 := by
  unfold immB
  iterate 3 rw [extractLsb'_append_eq_of_le (by decide)]
  rw [extractLsb'_append_eq_of_add_le (by decide)]
  exact extractLsb'_eq_self

theorem immB_extract_5_6 (w : InstWord) : (immB w).extractLsb' 5 6 = field w 25 6 := by
  unfold immB
  iterate 2 rw [extractLsb'_append_eq_of_le (by decide)]
  rw [extractLsb'_append_eq_of_add_le (by decide)]
  exact extractLsb'_eq_self

theorem immB_extract_1_4 (w : InstWord) : (immB w).extractLsb' 1 4 = field w 8 4 := by
  unfold immB
  rw [extractLsb'_append_eq_of_le (by decide), extractLsb'_append_eq_of_add_le (by decide)]
  exact extractLsb'_eq_self

theorem immJ_extract_20_1 (w : InstWord) : (immJ w).extractLsb' 20 1 = field w 31 1 := by
  unfold immJ
  iterate 4 rw [extractLsb'_append_eq_of_le (by decide)]
  exact extractLsb'_eq_self

theorem immJ_extract_12_8 (w : InstWord) : (immJ w).extractLsb' 12 8 = field w 12 8 := by
  unfold immJ
  iterate 3 rw [extractLsb'_append_eq_of_le (by decide)]
  rw [extractLsb'_append_eq_of_add_le (by decide)]
  exact extractLsb'_eq_self

theorem immJ_extract_11_1 (w : InstWord) : (immJ w).extractLsb' 11 1 = field w 20 1 := by
  unfold immJ
  iterate 2 rw [extractLsb'_append_eq_of_le (by decide)]
  rw [extractLsb'_append_eq_of_add_le (by decide)]
  exact extractLsb'_eq_self

theorem immJ_extract_1_10 (w : InstWord) : (immJ w).extractLsb' 1 10 = field w 21 10 := by
  unfold immJ
  rw [extractLsb'_append_eq_of_le (by decide), extractLsb'_append_eq_of_add_le (by decide)]
  exact extractLsb'_eq_self

end

/-! ### A word is the pattern of its row with its own fields, one lemma a format -/

theorem encU_fields {w pat : InstWord} (h : w &&& 0x0000007F = pat) : encU pat (rdField w) (immU w) = w := by
  simp only [← h, encU, rdField, immU, place_field, ← BitVec.and_or_distrib_left]
  exact and_eq_self_of_covers w (by decide)

theorem encJ_fields {w pat : InstWord} (h : w &&& 0x0000007F = pat) : encJ pat (rdField w) (immJ w) = w := by
  simp only [← h, encJ, rdField, immJ_extract_20_1, immJ_extract_12_8, immJ_extract_11_1, immJ_extract_1_10,
    place_field, ← BitVec.and_or_distrib_left]
  exact and_eq_self_of_covers w (by decide)

theorem encI_fields {w pat : InstWord} (h : w &&& 0x0000707F = pat) :
    encI pat (rdField w) (rs1Field w) (immI w) = w := by
  simp only [← h, encI, rdField, rs1Field, immI, place_field, ← BitVec.and_or_distrib_left]
  exact and_eq_self_of_covers w (by decide)

theorem encS_fields {w pat : InstWord} (h : w &&& 0x0000707F = pat) :
    encS pat (rs1Field w) (rs2Field w) (immS w) = w := by
  simp only [← h, encS, rs1Field, rs2Field, immS_extract_5_7, immS_extract_0_5, place_field,
    ← BitVec.and_or_distrib_left]
  exact and_eq_self_of_covers w (by decide)

theorem encB_fields {w pat : InstWord} (h : w &&& 0x0000707F = pat) :
    encB pat (rs1Field w) (rs2Field w) (immB w) = w := by
  simp only [← h, encB, rs1Field, rs2Field, immB_extract_12_1, immB_extract_11_1, immB_extract_5_6,
    immB_extract_1_4, place_field, ← BitVec.and_or_distrib_left]
  exact and_eq_self_of_covers w (by decide)

theorem encSh5_fields {w pat : InstWord} (h : w &&& 0xFE00707F = pat) :
    encSh5 pat (rdField w) (rs1Field w) (shamt5 w) = w := by
  simp only [← h, encSh5, rdField, rs1Field, shamt5, place_field, ← BitVec.and_or_distrib_left]
  exact and_eq_self_of_covers w (by decide)

theorem encSh6_fields {w pat : InstWord} (h : w &&& 0xFC00707F = pat) :
    encSh6 pat (rdField w) (rs1Field w) (shamt6 w) = w := by
  simp only [← h, encSh6, rdField, rs1Field, shamt6, place_field, ← BitVec.and_or_distrib_left]
  exact and_eq_self_of_covers w (by decide)

theorem encRd_fields {w pat : InstWord} (h : w &&& 0xFFFFF07F = pat) : encRd pat (rdField w) = w := by
  simp only [← h, encRd, rdField, place_field, ← BitVec.and_or_distrib_left]
  exact and_eq_self_of_covers w (by decide)

theorem encR1_fields {w pat : InstWord} (h : w &&& 0xFFF0707F = pat) : encR1 pat (rdField w) (rs1Field w) = w := by
  simp only [← h, encR1, rdField, rs1Field, place_field, ← BitVec.and_or_distrib_left]
  exact and_eq_self_of_covers w (by decide)

theorem encR_fields {w pat : InstWord} (h : w &&& 0xFE00707F = pat) :
    encR pat (rdField w) (rs1Field w) (rs2Field w) = w := by
  simp only [← h, encR, rdField, rs1Field, rs2Field, place_field, ← BitVec.and_or_distrib_left]
  exact and_eq_self_of_covers w (by decide)

theorem encRm1_fields {w pat : InstWord} (h : w &&& 0xFFF0007F = pat) :
    encRm1 pat (rmField w) (rdField w) (rs1Field w) = w := by
  simp only [← h, encRm1, rmField, rdField, rs1Field, place_field, ← BitVec.and_or_distrib_left]
  exact and_eq_self_of_covers w (by decide)

theorem encRm2_fields {w pat : InstWord} (h : w &&& 0xFE00007F = pat) :
    encRm2 pat (rmField w) (rdField w) (rs1Field w) (rs2Field w) = w := by
  simp only [← h, encRm2, rmField, rdField, rs1Field, rs2Field, place_field, ← BitVec.and_or_distrib_left]
  exact and_eq_self_of_covers w (by decide)

theorem encR4_fields {w pat : InstWord} (h : w &&& 0x0600007F = pat) :
    encR4 pat (rmField w) (rdField w) (rs1Field w) (rs2Field w) (rs3Field w) = w := by
  simp only [← h, encR4, rmField, rdField, rs1Field, rs2Field, rs3Field, place_field, ← BitVec.and_or_distrib_left]
  exact and_eq_self_of_covers w (by decide)

theorem encAmo1_fields {w pat : InstWord} (h : w &&& 0xF9F0707F = pat) :
    encAmo1 pat (aqBit w) (rlBit w) (rdField w) (rs1Field w) = w := by
  simp only [← h, encAmo1, aqBit, rlBit, rdField, rs1Field, placeBit_getLsbD, place_field,
    ← BitVec.and_or_distrib_left]
  exact and_eq_self_of_covers w (by decide)

theorem encAmo2_fields {w pat : InstWord} (h : w &&& 0xF800707F = pat) :
    encAmo2 pat (aqBit w) (rlBit w) (rdField w) (rs1Field w) (rs2Field w) = w := by
  simp only [← h, encAmo2, aqBit, rlBit, rdField, rs1Field, rs2Field, placeBit_getLsbD, place_field,
    ← BitVec.and_or_distrib_left]
  exact and_eq_self_of_covers w (by decide)

theorem encFence_fields {w pat : InstWord} (h : w &&& 0xF00FFFFF = pat) :
    encFence pat (predField w) (succField w) = w := by
  simp only [← h, encFence, predField, succField, place_field, ← BitVec.and_or_distrib_left]
  exact and_eq_self_of_covers w (by decide)

end Sys2Proof
end

section
/-! What a row reads from a word it accepts: an instruction that is well formed where the row exists, and whose
encoding is the word (`30_encoding.md` R126, R131, R134). -/

namespace Sys2Proof

/-- What the row reads is well formed where the row exists and encodes to the word it was read from, but for bit 27 of
FENCE.I, which the row ignores (R201). -/
structure Row.Faithful (r : Row) : Prop where
  wellFormed : ∀ w, r.xlens.all (r.build w).wellFormed = true
  encode_build : ∀ {w}, w &&& r.mask = r.pattern → encode (r.build w) = w ∨ (r.build w = .fenceI ∧ w = 0x0800100F)

section
variable {name : String} {xs : List XLen} {mask pat : InstWord} {build : InstWord → Instr}

/-- A row is faithful by the rule of its format. -/
theorem Row.Faithful.of (henc : ∀ {w}, w &&& mask = pat → encode (build w) = w)
    (hwf : ∀ w, xs.all (build w).wellFormed = true := by exact fun _ => rfl) :
    Row.Faithful ⟨name, xs, mask, pat, build⟩ :=
  ⟨hwf, fun h => .inl (henc h)⟩

/-- A row that fixes every bit accepts one word. -/
theorem Row.Faithful.ofFixed {i : Instr} (henc : encode i = pat) (hwf : xs.all i.wellFormed = true := by rfl) :
    Row.Faithful ⟨name, xs, 0xFFFFFFFF, pat, fun _ => i⟩ :=
  .of (fun {w} h => by rw [henc, ← h]; exact BitVec.and_allOnes) fun _ => hwf

end

/-! ### Even offsets, and FENCE.I -/

theorem evenOffset_immB (w : InstWord) : evenOffset (immB w) = true := by
  unfold evenOffset immB
  rw [BitVec.getLsbD_append]
  rfl

theorem evenOffset_immJ (w : InstWord) : evenOffset (immJ w) = true := by
  unfold evenOffset immJ
  rw [BitVec.getLsbD_append]
  rfl

/-- A branch or jump read by a row of both `XLEN` values is well formed when its offset is even. -/
theorem all_both_immB (w : InstWord) : (both.all fun _ => rowOfBoth && evenOffset (immB w)) = true := by
  rw [evenOffset_immB]; rfl

theorem all_both_immJ (w : InstWord) : (both.all fun _ => rowOfBoth && evenOffset (immJ w)) = true := by
  rw [evenOffset_immJ]; rfl

/-- The mask of FENCE.I leaves bit 27 free (R201). -/
theorem word_of_fenceI {w : InstWord} (h : w &&& 0xF7FFFFFF = 0x0000100F) : w = 0x0000100F ∨ w = 0x0800100F := by
  have hw : w = 0x0000100F ||| place 27 (field w 27 1) := by
    rw [← h, place_field, ← BitVec.and_or_distrib_left]
    exact (and_eq_self_of_covers w (by decide)).symm
  rcases BitVec.eq_zero_or_eq_one (field w 27 1) with h27 | h27
  · exact .inl (by rw [hw, h27]; rfl)
  · exact .inr (by rw [hw, h27]; rfl)

theorem Row.Faithful.fenceI : Row.Faithful ⟨"FENCE.I", both, 0xF7FFFFFF, 0x0000100F, fun _ => .fenceI⟩ :=
  ⟨fun _ => rfl, fun h => (word_of_fenceI h).imp Eq.symm fun hw => ⟨rfl, hw⟩⟩

/-! ### The rows, each by the rule of its format -/

theorem rowsRV32I_faithful : ∀ r ∈ rowsRV32I, r.Faithful := by
  simp only [rowsRV32I, List.forall_mem_cons]
  exact ⟨.of encU_fields, .of encU_fields, .of encJ_fields all_both_immJ, .of encI_fields,
    .of encB_fields all_both_immB, .of encB_fields all_both_immB, .of encB_fields all_both_immB,
    .of encB_fields all_both_immB, .of encB_fields all_both_immB, .of encB_fields all_both_immB, .of encI_fields,
    .of encI_fields, .of encI_fields, .of encI_fields, .of encI_fields, .of encS_fields, .of encS_fields,
    .of encS_fields, .of encI_fields, .of encI_fields, .of encI_fields, .of encI_fields, .of encI_fields,
    .of encI_fields, .of encSh5_fields, .of encSh5_fields, .of encSh5_fields, .of encR_fields, .of encR_fields,
    .of encR_fields, .of encR_fields, .of encR_fields, .of encR_fields, .of encR_fields, .of encR_fields,
    .of encR_fields, .of encR_fields, .of encFence_fields, .fenceI, .ofFixed rfl, .ofFixed rfl,
    List.forall_mem_nil _⟩

theorem rowsRV64I_faithful : ∀ r ∈ rowsRV64I, r.Faithful := by
  simp only [rowsRV64I, List.forall_mem_cons]
  exact ⟨.of encI_fields, .of encI_fields, .of encS_fields, .of encSh6_fields, .of encSh6_fields, .of encSh6_fields,
    .of encI_fields, .of encSh5_fields, .of encSh5_fields, .of encSh5_fields, .of encR_fields, .of encR_fields,
    .of encR_fields, .of encR_fields, .of encR_fields, List.forall_mem_nil _⟩

theorem rowsRV32M_faithful : ∀ r ∈ rowsRV32M, r.Faithful := by
  simp only [rowsRV32M, List.forall_mem_cons]
  exact ⟨.of encR_fields, .of encR_fields, .of encR_fields, .of encR_fields, .of encR_fields, .of encR_fields,
    .of encR_fields, .of encR_fields, List.forall_mem_nil _⟩

theorem rowsRV64M_faithful : ∀ r ∈ rowsRV64M, r.Faithful := by
  simp only [rowsRV64M, List.forall_mem_cons]
  exact ⟨.of encR_fields, .of encR_fields, .of encR_fields, .of encR_fields, .of encR_fields, List.forall_mem_nil _⟩

theorem rowsRV32A_faithful : ∀ r ∈ rowsRV32A, r.Faithful := by
  simp only [rowsRV32A, List.forall_mem_cons]
  exact ⟨.of encAmo1_fields, .of encAmo2_fields, .of encAmo2_fields, .of encAmo2_fields, .of encAmo2_fields,
    .of encAmo2_fields, .of encAmo2_fields, .of encAmo2_fields, .of encAmo2_fields, .of encAmo2_fields,
    .of encAmo2_fields, List.forall_mem_nil _⟩

theorem rowsRV64A_faithful : ∀ r ∈ rowsRV64A, r.Faithful := by
  simp only [rowsRV64A, List.forall_mem_cons]
  exact ⟨.of encAmo1_fields, .of encAmo2_fields, .of encAmo2_fields, .of encAmo2_fields, .of encAmo2_fields,
    .of encAmo2_fields, .of encAmo2_fields, .of encAmo2_fields, .of encAmo2_fields, .of encAmo2_fields,
    .of encAmo2_fields, List.forall_mem_nil _⟩

theorem rowsRV32F_faithful : ∀ r ∈ rowsRV32F, r.Faithful := by
  simp only [rowsRV32F, List.forall_mem_cons]
  exact ⟨.of encI_fields, .of encS_fields, .of encR4_fields, .of encR4_fields, .of encR4_fields, .of encR4_fields,
    .of encRm2_fields, .of encRm2_fields, .of encRm2_fields, .of encRm2_fields, .of encR_fields, .of encR_fields,
    .of encR_fields, .of encR_fields, .of encR_fields, .of encRm1_fields, .of encR_fields, .of encR_fields,
    .of encR_fields, .of encRm1_fields, .of encRm1_fields, .of encRm1_fields, .of encRm1_fields, .of encR1_fields,
    .of encR1_fields, .of encR1_fields, .of encRd_fields, .of encRd_fields, .of encRd_fields, .of encR1_fields,
    .of encR1_fields, .of encR1_fields, .of encR1_fields, .of encR1_fields, List.forall_mem_nil _⟩

theorem rowsRV64F_faithful : ∀ r ∈ rowsRV64F, r.Faithful := by
  simp only [rowsRV64F, List.forall_mem_cons]
  exact ⟨.of encRm1_fields, .of encRm1_fields, .of encRm1_fields, .of encRm1_fields, List.forall_mem_nil _⟩

theorem rowsRV32D_faithful : ∀ r ∈ rowsRV32D, r.Faithful := by
  simp only [rowsRV32D, List.forall_mem_cons]
  exact ⟨.of encI_fields, .of encS_fields, .of encR4_fields, .of encR4_fields, .of encR4_fields, .of encR4_fields,
    .of encRm2_fields, .of encRm2_fields, .of encRm2_fields, .of encRm2_fields, .of encR_fields, .of encR_fields,
    .of encR_fields, .of encR_fields, .of encR_fields, .of encRm1_fields, .of encR_fields, .of encR_fields,
    .of encR_fields, .of encRm1_fields, .of encRm1_fields, .of encRm1_fields, .of encRm1_fields, .of encR1_fields,
    List.forall_mem_nil _⟩

theorem rowsRV64D_faithful : ∀ r ∈ rowsRV64D, r.Faithful := by
  simp only [rowsRV64D, List.forall_mem_cons]
  exact ⟨.of encRm1_fields, .of encRm1_fields, .of encRm1_fields, .of encRm1_fields, .of encR1_fields,
    .of encR1_fields, List.forall_mem_nil _⟩

/-- Every row of the opcode table is faithful. -/
theorem faithful_of_mem : ∀ {r : Row}, r ∈ opcodeRows → r.Faithful := by
  simp only [opcodeRows, List.mem_append]
  rintro r (((((((((h | h) | h) | h) | h) | h) | h) | h) | h) | h)
  exacts [rowsRV32I_faithful r h, rowsRV64I_faithful r h, rowsRV32M_faithful r h, rowsRV64M_faithful r h,
    rowsRV32A_faithful r h, rowsRV64A_faithful r h, rowsRV32F_faithful r h, rowsRV64F_faithful r h,
    rowsRV32D_faithful r h, rowsRV64D_faithful r h]

end Sys2Proof
end

section
/-! What a row fixes of the words it accepts, and that no two rows accept one word (`30_encoding.md` R126). -/

namespace Sys2Proof

/-- The row fixes every bit of `inst[lo+k-1 : lo]`. -/
def Row.fixes (r : Row) (lo k : Nat) : Bool := field r.mask lo k == BitVec.allOnes k

/-- `inst[6:0]` of the words the row accepts. -/
def Row.opcode (r : Row) : BitVec 7 := field r.pattern 0 7

theorem Row.accepts_iff {r : Row} {x : XLen} {w : InstWord} :
    r.accepts x w = true ↔ x ∈ r.xlens ∧ w &&& r.mask = r.pattern := by
  simp [Row.accepts]

theorem field_and (a b : InstWord) (lo k : Nat) : field (a &&& b) lo k = field a lo k &&& field b lo k := by
  simp [field, BitVec.extractLsb'_and]

/-- A field that the row fixes is that of its pattern. -/
theorem Row.field_eq {r : Row} {x : XLen} {w : InstWord} {lo k : Nat} (h : r.accepts x w = true)
    (hfix : r.fixes lo k = true) : field w lo k = field r.pattern lo k := by
  have hmask : field r.mask lo k = BitVec.allOnes k := eq_of_beq hfix
  rw [← (Row.accepts_iff.1 h).2, field_and, hmask, BitVec.and_allOnes]

/-- Every row fixes the opcode. -/
theorem fixes_opcode : ∀ r ∈ opcodeRows, r.fixes 0 7 = true := by decide +kernel

theorem field_opcode {r : Row} {x : XLen} {w : InstWord} (hr : r ∈ opcodeRows) (h : r.accepts x w = true) :
    field w 0 7 = r.opcode :=
  r.field_eq h (fixes_opcode r hr)

/-- The two rows exist for no common `XLEN`, or differ in a bit that both fix. -/
def Row.disjoint (r r' : Row) : Bool :=
  (r.pattern ^^^ r'.pattern) &&& (r.mask &&& r'.mask) != 0#32 || r.xlens.all (!r'.xlens.contains ·)

/-- Disjoint rows accept no common word. -/
theorem Row.not_accepts_of_disjoint {r r' : Row} (hd : r.disjoint r' = true) {x : XLen} {w : InstWord}
    (h : r.accepts x w = true) : r'.accepts x w = false := by
  obtain ⟨hx, hw⟩ := Row.accepts_iff.1 h
  by_contra h'
  obtain ⟨hx', hw'⟩ := Row.accepts_iff.1 (Bool.not_eq_false _ ▸ h')
  have hsame : (r.pattern ^^^ r'.pattern) &&& (r.mask &&& r'.mask) = 0#32 := by
    rw [← hw, ← hw']
    ext i
    simp only [BitVec.getElem_and, BitVec.getElem_xor, BitVec.getElem_zero]
    cases w[i] <;> cases r.mask[i] <;> cases r'.mask[i] <;> rfl
  rw [Row.disjoint, hsame, bne_self_eq_false, Bool.false_or, List.all_eq_true] at hd
  simpa [hx'] using hd x hx

/-- The opcodes that some row has (`30_encoding.md` R131). -/
def usedOpcodes : List (BitVec 7) :=
  [0x03, 0x07, 0x0F, 0x13, 0x17, 0x1B, 0x23, 0x27, 0x2F, 0x33, 0x37, 0x3B, 0x43, 0x47, 0x4B, 0x4F, 0x53, 0x63, 0x67,
    0x6F, 0x73]

/-- The rows of one opcode. -/
def rowsOf (opcode : BitVec 7) : List Row := opcodeRows.filter (·.opcode == opcode)

theorem opcode_mem_used : ∀ r ∈ opcodeRows, r.opcode ∈ usedOpcodes := by decide +kernel

theorem mem_rowsOf {r : Row} {x : XLen} {w : InstWord} (hr : r ∈ opcodeRows) (h : r.accepts x w = true) :
    r ∈ rowsOf (field w 0 7) :=
  List.mem_filter.2 ⟨hr, by rw [field_opcode hr h]; exact beq_self_eq_true _⟩

/-- The rows of one opcode are disjoint from each other. -/
theorem rowsOf_pairwise_disjoint :
    ∀ opcode ∈ usedOpcodes, (rowsOf opcode).Pairwise fun r r' => r.disjoint r' = true := by
  decide +kernel

/-- The rows that accept a word are among those of its opcode. -/
theorem filter_accepts_eq (x : XLen) (w : InstWord) :
    opcodeRows.filter (·.accepts x w) = (rowsOf (field w 0 7)).filter (·.accepts x w) := by
  rw [rowsOf, List.filter_filter]
  refine List.filter_congr fun r hr => ?_
  cases h : r.accepts x w with
  | false => rfl
  | true => rw [field_opcode hr h, beq_self_eq_true]; rfl

/-- At most one row accepts a word. -/
theorem accepting_length_le_one (x : XLen) (w : InstWord) : (opcodeRows.filter (·.accepts x w)).length ≤ 1 := by
  rcases hrows : opcodeRows.filter (·.accepts x w) with _ | ⟨r, _ | ⟨r', rest⟩⟩
  · simp [hrows]
  · simp [hrows]
  · have hmem : ∀ q ∈ r :: r' :: rest, q ∈ opcodeRows ∧ q.accepts x w = true := fun q hq =>
      List.mem_filter.1 (hrows ▸ hq)
    obtain ⟨hr, hacc⟩ := hmem r (by simp)
    obtain ⟨-, hacc'⟩ := hmem r' (by simp)
    have hpair := (rowsOf_pairwise_disjoint _ (field_opcode hr hacc ▸ opcode_mem_used r hr)).filter (·.accepts x w)
    rw [← filter_accepts_eq, hrows] at hpair
    have hdisj : r.disjoint r' = true := List.rel_of_pairwise_cons hpair (by simp)
    exact absurd (Row.not_accepts_of_disjoint hdisj hacc) (by simp [hacc'])

/-- A word is decoded by whichever row accepts it. -/
theorem decodeWord_of_accepts {r : Row} {x : XLen} {w : InstWord} (hr : r ∈ opcodeRows) (h : r.accepts x w = true) :
    decodeWord x w = .ok (r.build w) := by
  have hlen := accepting_length_le_one x w
  have hmem : r ∈ opcodeRows.filter (·.accepts x w) := List.mem_filter.2 ⟨hr, h⟩
  obtain ⟨q, hq⟩ : ∃ q, opcodeRows.filter (·.accepts x w) = [q] :=
    List.length_eq_one_iff.1 (Nat.le_antisymm hlen (List.length_pos_of_mem hmem))
  obtain rfl : r = q := by simpa [hq] using hmem
  rw [decodeWord, ← List.head?_filter, hq]
  rfl

/-- Some row accepts a word, or the decoder refuses it by its name (R131). -/
theorem accepted_or_reserved (x : XLen) (w : InstWord) :
    (∃ r ∈ opcodeRows, r.accepts x w = true) ∨ decodeWord x w = .error (.reserved w) := by
  cases h : decodeWord x w with
  | ok i =>
    obtain ⟨r, hr, hacc, -⟩ := decodeWord_ok h
    exact .inl ⟨r, hr, hacc⟩
  | error e => rw [(decodeWord_error h).1]; exact .inr rfl

/-- A word that no row accepts is refused (R131). -/
theorem decodeWord_reserved {x : XLen} {w : InstWord} (h : ∀ r ∈ opcodeRows, r.accepts x w = false) :
    decodeWord x w = .error (.reserved w) := by
  rcases accepted_or_reserved x w with ⟨r, hr, hacc⟩ | hreserved
  · rw [h r hr] at hacc
    cases hacc
  · exact hreserved

end Sys2Proof
end

section
/-! Decoding after encoding (`30_encoding.md` R126). -/

namespace Sys2Proof

open Sys2Proof.Laws in
/-- Some row accepts the word of every well-formed instruction and reads the instruction back: the family of
Sys2Proof/Laws/PerInstr.lean, put together. -/
theorem encoding_statement (i : Instr) : Encoding.Statement i :=
  match i with
  | .lui rd imm => Encoding.lui rd imm | .auipc rd imm => Encoding.auipc rd imm | .jal rd off => Encoding.jal rd off
  | .jalr rd rs1 imm => Encoding.jalr rd rs1 imm | .beq rs1 rs2 off => Encoding.beq rs1 rs2 off
  | .bne rs1 rs2 off => Encoding.bne rs1 rs2 off | .blt rs1 rs2 off => Encoding.blt rs1 rs2 off
  | .bge rs1 rs2 off => Encoding.bge rs1 rs2 off | .bltu rs1 rs2 off => Encoding.bltu rs1 rs2 off
  | .bgeu rs1 rs2 off => Encoding.bgeu rs1 rs2 off | .lb rd rs1 imm => Encoding.lb rd rs1 imm
  | .lh rd rs1 imm => Encoding.lh rd rs1 imm | .lw rd rs1 imm => Encoding.lw rd rs1 imm
  | .lbu rd rs1 imm => Encoding.lbu rd rs1 imm | .lhu rd rs1 imm => Encoding.lhu rd rs1 imm
  | .sb rs1 rs2 imm => Encoding.sb rs1 rs2 imm | .sh rs1 rs2 imm => Encoding.sh rs1 rs2 imm
  | .sw rs1 rs2 imm => Encoding.sw rs1 rs2 imm | .addi rd rs1 imm => Encoding.addi rd rs1 imm
  | .slti rd rs1 imm => Encoding.slti rd rs1 imm | .sltiu rd rs1 imm => Encoding.sltiu rd rs1 imm
  | .xori rd rs1 imm => Encoding.xori rd rs1 imm | .ori rd rs1 imm => Encoding.ori rd rs1 imm
  | .andi rd rs1 imm => Encoding.andi rd rs1 imm | .slli32 rd rs1 shamt => Encoding.slli32 rd rs1 shamt
  | .srli32 rd rs1 shamt => Encoding.srli32 rd rs1 shamt | .srai32 rd rs1 shamt => Encoding.srai32 rd rs1 shamt
  | .add rd rs1 rs2 => Encoding.add rd rs1 rs2 | .sub rd rs1 rs2 => Encoding.sub rd rs1 rs2
  | .sll rd rs1 rs2 => Encoding.sll rd rs1 rs2 | .slt rd rs1 rs2 => Encoding.slt rd rs1 rs2
  | .sltu rd rs1 rs2 => Encoding.sltu rd rs1 rs2 | .xor rd rs1 rs2 => Encoding.xor rd rs1 rs2
  | .srl rd rs1 rs2 => Encoding.srl rd rs1 rs2 | .sra rd rs1 rs2 => Encoding.sra rd rs1 rs2
  | .or rd rs1 rs2 => Encoding.or rd rs1 rs2 | .and rd rs1 rs2 => Encoding.and rd rs1 rs2
  | .fence pred succ => Encoding.fence pred succ | .fenceI => Encoding.fenceI | .ecall => Encoding.ecall
  | .ebreak => Encoding.ebreak | .lwu rd rs1 imm => Encoding.lwu rd rs1 imm
  | .ld rd rs1 imm => Encoding.ld rd rs1 imm | .sd rs1 rs2 imm => Encoding.sd rs1 rs2 imm
  | .slli64 rd rs1 shamt => Encoding.slli64 rd rs1 shamt | .srli64 rd rs1 shamt => Encoding.srli64 rd rs1 shamt
  | .srai64 rd rs1 shamt => Encoding.srai64 rd rs1 shamt | .addiw rd rs1 imm => Encoding.addiw rd rs1 imm
  | .slliw rd rs1 shamt => Encoding.slliw rd rs1 shamt | .srliw rd rs1 shamt => Encoding.srliw rd rs1 shamt
  | .sraiw rd rs1 shamt => Encoding.sraiw rd rs1 shamt | .addw rd rs1 rs2 => Encoding.addw rd rs1 rs2
  | .subw rd rs1 rs2 => Encoding.subw rd rs1 rs2 | .sllw rd rs1 rs2 => Encoding.sllw rd rs1 rs2
  | .srlw rd rs1 rs2 => Encoding.srlw rd rs1 rs2 | .sraw rd rs1 rs2 => Encoding.sraw rd rs1 rs2
  | .mul rd rs1 rs2 => Encoding.mul rd rs1 rs2 | .mulh rd rs1 rs2 => Encoding.mulh rd rs1 rs2
  | .mulhsu rd rs1 rs2 => Encoding.mulhsu rd rs1 rs2 | .mulhu rd rs1 rs2 => Encoding.mulhu rd rs1 rs2
  | .div rd rs1 rs2 => Encoding.div rd rs1 rs2 | .divu rd rs1 rs2 => Encoding.divu rd rs1 rs2
  | .rem rd rs1 rs2 => Encoding.rem rd rs1 rs2 | .remu rd rs1 rs2 => Encoding.remu rd rs1 rs2
  | .mulw rd rs1 rs2 => Encoding.mulw rd rs1 rs2 | .divw rd rs1 rs2 => Encoding.divw rd rs1 rs2
  | .divuw rd rs1 rs2 => Encoding.divuw rd rs1 rs2 | .remw rd rs1 rs2 => Encoding.remw rd rs1 rs2
  | .remuw rd rs1 rs2 => Encoding.remuw rd rs1 rs2 | .lrW aq rl rd rs1 => Encoding.lrW aq rl rd rs1
  | .scW aq rl rd rs1 rs2 => Encoding.scW aq rl rd rs1 rs2
  | .amoswapW aq rl rd rs1 rs2 => Encoding.amoswapW aq rl rd rs1 rs2
  | .amoaddW aq rl rd rs1 rs2 => Encoding.amoaddW aq rl rd rs1 rs2
  | .amoxorW aq rl rd rs1 rs2 => Encoding.amoxorW aq rl rd rs1 rs2
  | .amoorW aq rl rd rs1 rs2 => Encoding.amoorW aq rl rd rs1 rs2
  | .amoandW aq rl rd rs1 rs2 => Encoding.amoandW aq rl rd rs1 rs2
  | .amominW aq rl rd rs1 rs2 => Encoding.amominW aq rl rd rs1 rs2
  | .amomaxW aq rl rd rs1 rs2 => Encoding.amomaxW aq rl rd rs1 rs2
  | .amominuW aq rl rd rs1 rs2 => Encoding.amominuW aq rl rd rs1 rs2
  | .amomaxuW aq rl rd rs1 rs2 => Encoding.amomaxuW aq rl rd rs1 rs2 | .lrD aq rl rd rs1 => Encoding.lrD aq rl rd rs1
  | .scD aq rl rd rs1 rs2 => Encoding.scD aq rl rd rs1 rs2
  | .amoswapD aq rl rd rs1 rs2 => Encoding.amoswapD aq rl rd rs1 rs2
  | .amoaddD aq rl rd rs1 rs2 => Encoding.amoaddD aq rl rd rs1 rs2
  | .amoxorD aq rl rd rs1 rs2 => Encoding.amoxorD aq rl rd rs1 rs2
  | .amoorD aq rl rd rs1 rs2 => Encoding.amoorD aq rl rd rs1 rs2
  | .amoandD aq rl rd rs1 rs2 => Encoding.amoandD aq rl rd rs1 rs2
  | .amominD aq rl rd rs1 rs2 => Encoding.amominD aq rl rd rs1 rs2
  | .amomaxD aq rl rd rs1 rs2 => Encoding.amomaxD aq rl rd rs1 rs2
  | .amominuD aq rl rd rs1 rs2 => Encoding.amominuD aq rl rd rs1 rs2
  | .amomaxuD aq rl rd rs1 rs2 => Encoding.amomaxuD aq rl rd rs1 rs2 | .flw rd rs1 imm => Encoding.flw rd rs1 imm
  | .fsw rs1 rs2 imm => Encoding.fsw rs1 rs2 imm | .fmaddS rm rd rs1 rs2 rs3 => Encoding.fmaddS rm rd rs1 rs2 rs3
  | .fmsubS rm rd rs1 rs2 rs3 => Encoding.fmsubS rm rd rs1 rs2 rs3
  | .fnmsubS rm rd rs1 rs2 rs3 => Encoding.fnmsubS rm rd rs1 rs2 rs3
  | .fnmaddS rm rd rs1 rs2 rs3 => Encoding.fnmaddS rm rd rs1 rs2 rs3
  | .faddS rm rd rs1 rs2 => Encoding.faddS rm rd rs1 rs2 | .fsubS rm rd rs1 rs2 => Encoding.fsubS rm rd rs1 rs2
  | .fmulS rm rd rs1 rs2 => Encoding.fmulS rm rd rs1 rs2 | .fdivS rm rd rs1 rs2 => Encoding.fdivS rm rd rs1 rs2
  | .fsgnjS rd rs1 rs2 => Encoding.fsgnjS rd rs1 rs2 | .fsgnjnS rd rs1 rs2 => Encoding.fsgnjnS rd rs1 rs2
  | .fsgnjxS rd rs1 rs2 => Encoding.fsgnjxS rd rs1 rs2 | .fminS rd rs1 rs2 => Encoding.fminS rd rs1 rs2
  | .fmaxS rd rs1 rs2 => Encoding.fmaxS rd rs1 rs2 | .fsqrtS rm rd rs1 => Encoding.fsqrtS rm rd rs1
  | .fleS rd rs1 rs2 => Encoding.fleS rd rs1 rs2 | .fltS rd rs1 rs2 => Encoding.fltS rd rs1 rs2
  | .feqS rd rs1 rs2 => Encoding.feqS rd rs1 rs2 | .fcvtWS rm rd rs1 => Encoding.fcvtWS rm rd rs1
  | .fcvtWuS rm rd rs1 => Encoding.fcvtWuS rm rd rs1 | .fcvtSW rm rd rs1 => Encoding.fcvtSW rm rd rs1
  | .fcvtSWu rm rd rs1 => Encoding.fcvtSWu rm rd rs1 | .fmvXS rd rs1 => Encoding.fmvXS rd rs1
  | .fclassS rd rs1 => Encoding.fclassS rd rs1 | .fmvSX rd rs1 => Encoding.fmvSX rd rs1
  | .frcsr rd => Encoding.frcsr rd | .frrm rd => Encoding.frrm rd | .frflags rd => Encoding.frflags rd
  | .fscsr rd rs1 => Encoding.fscsr rd rs1 | .fsrm rd rs1 => Encoding.fsrm rd rs1
  | .fsflags rd rs1 => Encoding.fsflags rd rs1 | .fsrmi rd uimm => Encoding.fsrmi rd uimm
  | .fsflagsi rd uimm => Encoding.fsflagsi rd uimm | .fcvtLS rm rd rs1 => Encoding.fcvtLS rm rd rs1
  | .fcvtLuS rm rd rs1 => Encoding.fcvtLuS rm rd rs1 | .fcvtSL rm rd rs1 => Encoding.fcvtSL rm rd rs1
  | .fcvtSLu rm rd rs1 => Encoding.fcvtSLu rm rd rs1 | .fld rd rs1 imm => Encoding.fld rd rs1 imm
  | .fsd rs1 rs2 imm => Encoding.fsd rs1 rs2 imm | .fmaddD rm rd rs1 rs2 rs3 => Encoding.fmaddD rm rd rs1 rs2 rs3
  | .fmsubD rm rd rs1 rs2 rs3 => Encoding.fmsubD rm rd rs1 rs2 rs3
  | .fnmsubD rm rd rs1 rs2 rs3 => Encoding.fnmsubD rm rd rs1 rs2 rs3
  | .fnmaddD rm rd rs1 rs2 rs3 => Encoding.fnmaddD rm rd rs1 rs2 rs3
  | .faddD rm rd rs1 rs2 => Encoding.faddD rm rd rs1 rs2 | .fsubD rm rd rs1 rs2 => Encoding.fsubD rm rd rs1 rs2
  | .fmulD rm rd rs1 rs2 => Encoding.fmulD rm rd rs1 rs2 | .fdivD rm rd rs1 rs2 => Encoding.fdivD rm rd rs1 rs2
  | .fsgnjD rd rs1 rs2 => Encoding.fsgnjD rd rs1 rs2 | .fsgnjnD rd rs1 rs2 => Encoding.fsgnjnD rd rs1 rs2
  | .fsgnjxD rd rs1 rs2 => Encoding.fsgnjxD rd rs1 rs2 | .fminD rd rs1 rs2 => Encoding.fminD rd rs1 rs2
  | .fmaxD rd rs1 rs2 => Encoding.fmaxD rd rs1 rs2 | .fsqrtD rm rd rs1 => Encoding.fsqrtD rm rd rs1
  | .fleD rd rs1 rs2 => Encoding.fleD rd rs1 rs2 | .fltD rd rs1 rs2 => Encoding.fltD rd rs1 rs2
  | .feqD rd rs1 rs2 => Encoding.feqD rd rs1 rs2 | .fcvtWD rm rd rs1 => Encoding.fcvtWD rm rd rs1
  | .fcvtWuD rm rd rs1 => Encoding.fcvtWuD rm rd rs1 | .fcvtDW rm rd rs1 => Encoding.fcvtDW rm rd rs1
  | .fcvtDWu rm rd rs1 => Encoding.fcvtDWu rm rd rs1 | .fclassD rd rs1 => Encoding.fclassD rd rs1
  | .fcvtLD rm rd rs1 => Encoding.fcvtLD rm rd rs1 | .fcvtLuD rm rd rs1 => Encoding.fcvtLuD rm rd rs1
  | .fcvtDL rm rd rs1 => Encoding.fcvtDL rm rd rs1 | .fcvtDLu rm rd rs1 => Encoding.fcvtDLu rm rd rs1
  | .fmvXD rd rs1 => Encoding.fmvXD rd rs1 | .fmvDX rd rs1 => Encoding.fmvDX rd rs1

/-- The decoder reads a well-formed instruction back from its word. -/
theorem decodeWord_encode {x : XLen} {i : Instr} (h : i.wellFormed x = true) : decodeWord x (encode i) = .ok i := by
  obtain ⟨r, hr, hacc, hbuild⟩ := encoding_statement i x h
  rw [decodeWord_of_accepts hr hacc, hbuild]

/-- A word written out decodes to the well-formed instruction it encodes. -/
theorem decodeWord_of_encode_eq {x : XLen} {w : InstWord} {i : Instr} (hwf : i.wellFormed x = true)
    (hw : encode i = w) : decodeWord x w = .ok i :=
  hw ▸ decodeWord_encode hwf

/-- What is decoded is well formed. -/
theorem wellFormed_of_accepts {r : Row} {x : XLen} {w : InstWord} (hr : r ∈ opcodeRows) (h : r.accepts x w = true) :
    (r.build w).wellFormed x = true :=
  List.all_eq_true.1 ((faithful_of_mem hr).wellFormed w) x (Row.accepts_iff.1 h).1

end Sys2Proof
end

section
/-! Reserved words: the fields that the rows of each opcode fix, and that what is read from them is in use
(`30_encoding.md` R126, R131). -/

namespace Sys2Proof

open Sys2Proof.Machine

/-- To refuse a word, refute each row that would accept it. -/
theorem decodeWord_reserved_of_accepts {x : XLen} {w : InstWord}
    (h : ∀ r ∈ opcodeRows, r.accepts x w = true → False) : decodeWord x w = .error (.reserved w) :=
  decodeWord_reserved fun r hr => Bool.eq_false_iff.2 (h r hr)

/-! ### What the rows of an opcode fix -/

theorem fixes_low_bits : ∀ r ∈ opcodeRows, r.fixes 0 2 = true ∧ field r.pattern 0 2 = 3 := by decide +kernel

/-- `funct3` of the opcodes whose rows all fix it. -/
theorem fixes_funct3 : ∀ r ∈ opcodeRows,
    r.opcode.toNat ∈ [0x67, 0x63, 0x03, 0x23, 0x0F, 0x07, 0x27, 0x13, 0x1B, 0x33, 0x3B, 0x2F] → r.fixes 12 3 = true := by
  decide +kernel

/-- `funct7` of the R-format opcodes and of OP-FP. -/
theorem fixes_funct7 : ∀ r ∈ opcodeRows, r.opcode.toNat ∈ [0x33, 0x3B, 0x53] → r.fixes 25 7 = true := by
  decide +kernel

/-- `inst[31:26]` of the shifts of OP-IMM, whose rows fix 6 or 7 bits there. -/
theorem fixes_funct6_of_shift : ∀ r ∈ opcodeRows, r.opcode.toNat = 0x13 →
    (field r.pattern 12 3).toNat ∈ [1, 5] → r.fixes 26 6 = true := by
  decide +kernel

/-- `funct7` of the shifts of OP-IMM-32. -/
theorem fixes_funct7_of_shiftw : ∀ r ∈ opcodeRows, r.opcode.toNat = 0x1B →
    (field r.pattern 12 3).toNat ∈ [1, 5] → r.fixes 25 7 = true := by
  decide +kernel

theorem fixes_funct5 : ∀ r ∈ opcodeRows, r.opcode.toNat = 0x2F → r.fixes 27 5 = true := by decide +kernel

theorem fixes_fmt : ∀ r ∈ opcodeRows, r.opcode.toNat ∈ [0x43, 0x47, 0x4B, 0x4F] → r.fixes 25 2 = true := by
  decide +kernel

/-- `funct3` of the OP-FP rows that have no rounding mode there. -/
theorem fixes_funct3_of_opFp : ∀ r ∈ opcodeRows, r.opcode.toNat = 0x53 →
    (field r.pattern 25 7).toNat ∈ [0x10, 0x11, 0x14, 0x15, 0x50, 0x51, 0x70, 0x71, 0x78, 0x79] →
    r.fixes 12 3 = true := by
  decide +kernel

/-- `inst[24:20]` of the OP-FP rows with one operand. -/
theorem fixes_rs2_of_opFp : ∀ r ∈ opcodeRows, r.opcode.toNat = 0x53 →
    (field r.pattern 25 7).toNat ∈ [0x2C, 0x2D, 0x60, 0x61, 0x68, 0x69, 0x70, 0x71, 0x78, 0x79] →
    r.fixes 20 5 = true := by
  decide +kernel

/-- `inst[24:20]` of LR. -/
theorem fixes_rs2_of_lr : ∀ r ∈ opcodeRows, r.opcode = 0x2F → field r.pattern 27 5 = 2 →
    r.fixes 20 5 = true ∧ field r.pattern 20 5 = 0 := by
  decide +kernel

/-! ### A word reads as the pattern of its row -/

/-- `inst[31:26]` is `funct7` without its last bit. -/
theorem toNat_funct6 (w : InstWord) : (field w 25 7).toNat / 2 = (field w 26 6).toNat := by
  simp only [field, BitVec.extractLsb'_toNat, Nat.shiftRight_eq_div_pow]
  omega

/-- Two conjunctions with one left side agree when their right sides do where it holds. -/
theorem and_congr_of_left {a b c : Bool} (h : a = true → b = c) : (a && b) = (a && c) := by
  cases a with
  | false => rfl
  | true => exact h rfl

section
variable {r : Row} {x : XLen} {w : InstWord} (hr : r ∈ opcodeRows) (hacc : r.accepts x w = true)
include hr hacc

/-- The fields that tell an unused function code of an opcode are fixed by every row of it. -/
theorem unusedFunct_eq : unusedFunct w = unusedFunct r.pattern := by
  have hop : field w 0 7 = field r.pattern 0 7 := field_opcode hr hacc
  have hfunct3 := fun h => r.field_eq hacc (fixes_funct3 r hr h)
  have hfunct7 := fun h => r.field_eq hacc (fixes_funct7 r hr h)
  simp only [unusedFunct, toNat_funct6, hop, Bool.and_assoc]
  repeat' apply congrArg₂ or
  all_goals
    refine and_congr_of_left fun hopcode => ?_
    simp only [beq_iff_eq, Bool.or_eq_true, List.contains_iff_mem, ← Row.opcode.eq_1] at hopcode
  -- one goal a clause of `unusedFunct`, in its order
  · rw [hfunct3 (by simp [hopcode])]
  · rw [hfunct3 (by simp [hopcode])]
  · rw [hfunct3 (by simp [hopcode])]
  · rw [hfunct3 (by simp [hopcode])]
  · rw [hfunct3 (by simp [hopcode])]
  · rcases hopcode with hopcode | hopcode <;> rw [hfunct3 (by simp [hopcode])]
  · rw [hfunct3 (by simp [hopcode])]
    have hfunct6 := fun h => r.field_eq hacc (fixes_funct6_of_shift r hr hopcode h)
    apply congrArg₂ or <;> refine and_congr_of_left fun hshift => ?_ <;> rw [hfunct6 (by simp [eq_of_beq hshift])]
  · rw [hfunct3 (by simp [hopcode])]
    have hfunct7 := fun h => r.field_eq hacc (fixes_funct7_of_shiftw r hr hopcode h)
    refine congrArg₂ or (congrArg (or _) ?_) ?_ <;> refine and_congr_of_left fun hshift => ?_ <;>
      rw [hfunct7 (by simp [eq_of_beq hshift])]
  · rw [hfunct7 (by simp [hopcode]), hfunct3 (by simp [hopcode])]
  · rw [hfunct7 (by simp [hopcode]), hfunct3 (by simp [hopcode])]
  · rw [hfunct3 (by simp [hopcode]), r.field_eq hacc (fixes_funct5 r hr hopcode)]
  · rw [r.field_eq hacc (fixes_fmt r hr hopcode)]
  · rw [hfunct7 (by simp [hopcode])]
    have hfunct3 := fun h => r.field_eq hacc (fixes_funct3_of_opFp r hr hopcode h)
    refine congrArg₂ or (congrArg₂ or (congrArg (or _) ?_) ?_) ?_ <;> refine and_congr_of_left fun hfunct7 => ?_ <;>
      rw [hfunct3 (by simp at hfunct7 ⊢; omega)]

/-- So are the fields that tell an OP-FP word with another value in `inst[24:20]`. -/
theorem otherFixedRs2_eq : otherFixedRs2 w = otherFixedRs2 r.pattern := by
  have hop : field w 0 7 = field r.pattern 0 7 := field_opcode hr hacc
  simp only [otherFixedRs2, hop]
  refine and_congr_of_left fun h => ?_
  have hopcode : r.opcode.toNat = 0x53 := congrArg BitVec.toNat (eq_of_beq h)
  rw [r.field_eq hacc (fixes_funct7 r hr (by simp [hopcode]))]
  have hrs2 := fun h => r.field_eq hacc (fixes_rs2_of_opFp r hr hopcode h)
  apply congrArg₂ or <;> refine and_congr_of_left fun hfunct7 => ?_ <;> rw [hrs2 (by simp at hfunct7 ⊢; omega)]

end

theorem unusedFunct_pattern : ∀ r ∈ opcodeRows, unusedFunct r.pattern = false := by decide +kernel

theorem otherFixedRs2_pattern : ∀ r ∈ opcodeRows, otherFixedRs2 r.pattern = false := by decide +kernel

/-! ### The words refused -/

section
variable {x : XLen} {w : InstWord}

theorem decodeWord_of_opcode_unused (h : (field w 0 7).toNat ∉ usedOpcodes.map BitVec.toNat) :
    decodeWord x w = .error (.reserved w) :=
  decodeWord_reserved_of_accepts fun r hr hacc =>
    h (List.mem_map_of_mem (field_opcode hr hacc ▸ opcode_mem_used r hr))

theorem decodeWord_of_low_bits (h : field w 0 2 ≠ 3) : decodeWord x w = .error (.reserved w) :=
  decodeWord_reserved_of_accepts fun r hr hacc => by
    obtain ⟨hfix, hpat⟩ := fixes_low_bits r hr
    exact h ((r.field_eq hacc hfix).trans hpat)

theorem decodeWord_of_lr_rs2 (hop : field w 0 7 = 0x2F) (hfunct5 : field w 27 5 = 2) (hrs2 : field w 20 5 ≠ 0) :
    decodeWord x w = .error (.reserved w) :=
  decodeWord_reserved_of_accepts fun r hr hacc => by
    have hopcode : r.opcode = 0x2F := (field_opcode hr hacc).symm.trans hop
    have hfix5 := fixes_funct5 r hr (congrArg BitVec.toNat hopcode)
    obtain ⟨hfix, hpat⟩ := fixes_rs2_of_lr r hr hopcode ((r.field_eq hacc hfix5).symm.trans hfunct5)
    exact hrs2 ((r.field_eq hacc hfix).trans hpat)

theorem decodeWord_of_unusedFunct (h : unusedFunct w = true) : decodeWord x w = .error (.reserved w) :=
  decodeWord_reserved_of_accepts fun r hr hacc => by
    rw [unusedFunct_eq hr hacc, unusedFunct_pattern r hr] at h
    cases h

theorem decodeWord_of_otherFixedRs2 (h : otherFixedRs2 w = true) : decodeWord x w = .error (.reserved w) :=
  decodeWord_reserved_of_accepts fun r hr hacc => by
    rw [otherFixedRs2_eq hr hacc, otherFixedRs2_pattern r hr] at h
    cases h

/-- No OP-FP row has the `funct7` of FCVT.S.D or FCVT.D.S. -/
theorem unusedFunct_of_fcvt (hop : field w 0 7 = 0x53) (hfunct7 : field w 25 7 = 0x20 ∨ field w 25 7 = 0x21) :
    unusedFunct w = true := by
  rcases hfunct7 with hfunct7 | hfunct7 <;> simp [unusedFunct, hop, hfunct7]

/-- The SYSTEM rows stand at the end of table RV32I and of table RV32F. -/
theorem rowsOf_system : rowsOf 0x73 = rowsRV32I.drop 39 ++ rowsRV32F.drop 26 := by rfl

/-- What is read from a SYSTEM word is one of the ten. -/
theorem system_word_cases {i : Instr} (hop : field w 0 7 = 0x73) (h : decodeWord x w = .ok i) :
    i = .ecall ∨ i = .ebreak ∨ ∃ (rd rs1 : XReg) (uimm : BitVec 5),
      i = .frcsr rd ∨ i = .frrm rd ∨ i = .frflags rd ∨ i = .fscsr rd rs1 ∨ i = .fsrm rd rs1 ∨
        i = .fsflags rd rs1 ∨ i = .fsrmi rd uimm ∨ i = .fsflagsi rd uimm := by
  obtain ⟨r, hr, hacc, rfl⟩ := decodeWord_ok h
  have hrow := mem_rowsOf hr hacc
  rw [hop, rowsOf_system] at hrow
  simp only [rowsRV32I, rowsRV32F, List.drop_succ_cons, List.drop_zero, List.cons_append, List.nil_append,
    List.mem_cons, List.not_mem_nil, or_false] at hrow
  rcases hrow with rfl | rfl | rfl | rfl | rfl | rfl | rfl | rfl | rfl | rfl
  · exact .inl rfl
  · exact .inr (.inl rfl)
  all_goals
    refine .inr (.inr ⟨⟨rdField w⟩, ⟨rs1Field w⟩, uimmField w, ?_⟩)
    simp

/-- The rows of `XLEN = 32` only are the shifts with a 5-bit amount. -/
theorem rows_only32 : opcodeRows.filter (fun r => !r.xlens.contains .rv64) = (rowsRV32I.drop 24).take 3 := by rfl

/-- With `XLEN = 64` the word of a shift with a 5-bit amount is that of the same shift with a 6-bit amount below 32. -/
theorem decodeWord_shift {name : String} {pat : InstWord} {c : XReg → XReg → BitVec 6 → Instr} (k : Nat)
    (hrow : rowsRV64I[k]? =
      some ⟨name, only64, 0xFC00707F, pat, fun w => c ⟨rdField w⟩ ⟨rs1Field w⟩ (shamt6 w)⟩)
    (hpat : pat &&& 0xFC00707F = pat) (hbit : field pat 25 1 = 0) (hw : w &&& 0xFE00707F = pat) :
    ∃ (rd rs1 : XReg) (n : BitVec 6), n.toNat < 32 ∧ decodeWord .rv64 w = .ok (c rd rs1 n) := by
  refine ⟨⟨rdField w⟩, ⟨rs1Field w⟩, shamt6 w, ?amount, ?decodes⟩
  case amount =>
    have hzero : field w 25 1 = 0 := by
      rw [← hbit, ← hw, field_and]
      exact BitVec.and_allOnes.symm
    have hnat := congrArg BitVec.toNat hzero
    simp only [shamt6, field, BitVec.extractLsb'_toNat, Nat.shiftRight_eq_div_pow] at hnat ⊢
    simp at hnat
    omega
  case decodes =>
    refine decodeWord_of_accepts (mem_rowsRV64I (List.mem_of_getElem? hrow)) (Row.accepts_iff.2 ⟨by simp [only64], ?_⟩)
    show w &&& 0xFC00707F = pat
    rw [← hpat, ← hw, BitVec.and_assoc]
    rfl

/-- A word whose instruction is not well formed with `XLEN = 32` is refused there, or is a shift by less than 32. -/
theorem rv32_word_cases {i : Instr} (h : decodeWord .rv64 w = .ok i) (hwf : i.wellFormed .rv32 = false) :
    decodeWord .rv32 w = .error (.reserved w) ∨
      ∃ (rd rs1 : XReg) (n : BitVec 6), n.toNat < 32 ∧
        (i = .slli64 rd rs1 n ∨ i = .srli64 rd rs1 n ∨ i = .srai64 rd rs1 n) := by
  rcases accepted_or_reserved .rv32 w with ⟨r, hr, hacc⟩ | hreserved
  case inr => exact .inl hreserved
  refine .inr ?_
  have hw := (Row.accepts_iff.1 hacc).2
  cases hx : r.xlens.contains .rv64 with
  | true =>
    have hacc64 : r.accepts .rv64 w = true := Row.accepts_iff.2 ⟨List.contains_iff_mem.1 hx, hw⟩
    obtain rfl : r.build w = i := by simpa [decodeWord_of_accepts hr hacc64] using h
    rw [wellFormed_of_accepts hr hacc] at hwf
    cases hwf
  | false =>
    have hrow : r ∈ opcodeRows.filter (fun r => !r.xlens.contains .rv64) := List.mem_filter.2 ⟨hr, by rw [hx]; rfl⟩
    rw [rows_only32] at hrow
    simp only [rowsRV32I, List.drop_succ_cons, List.drop_zero, List.take_succ_cons, List.take_zero, List.mem_cons,
      List.not_mem_nil, or_false] at hrow
    rcases hrow with rfl | rfl | rfl
    · obtain ⟨rd, rs1, n, hn, hdecode⟩ := decodeWord_shift (c := .slli64) 3 rfl (by decide) (by decide) hw
      exact ⟨rd, rs1, n, hn, .inl (Except.ok.inj (h.symm.trans hdecode))⟩
    · obtain ⟨rd, rs1, n, hn, hdecode⟩ := decodeWord_shift (c := .srli64) 4 rfl (by decide) (by decide) hw
      exact ⟨rd, rs1, n, hn, .inr (.inl (Except.ok.inj (h.symm.trans hdecode)))⟩
    · obtain ⟨rd, rs1, n, hn, hdecode⟩ := decodeWord_shift (c := .srai64) 5 rfl (by decide) (by decide) hw
      exact ⟨rd, rs1, n, hn, .inr (.inr (Except.ok.inj (h.symm.trans hdecode)))⟩

end

end Sys2Proof
end

section
/-! What a step of a running hart is where no instruction runs (`20_memory.md` R68, R92; `30_encoding.md` R131). -/

namespace Sys2Proof.Machine

section
variable {s : State}

/-- A fetch that `mem_valid` refuses raises, whatever is stale (R68). -/
theorem fetch_eq_trap (hinvalid : s.params.memValid .fetch (readPc s.bits s).toNat 4 = false) :
    fetch s = .trap ⟨.instructionAccessFault, s.pc⟩ := by
  rcases fetch_cases s with ⟨-, htrap⟩ | ⟨hvalid, -⟩ | ⟨hvalid, -⟩
  · exact htrap
  all_goals rw [hinvalid] at hvalid; cases hvalid

/-- A valid fetch of a stale byte meets one (R92). -/
theorem fetch_eq_stale {a : Nat} (hvalid : s.params.memValid .fetch (readPc s.bits s).toNat 4 = true)
    (ha : a ∈ fetchAddrs s) (hstale : a ∈ s.stale) : ∃ b ∈ fetchAddrs s, b ∈ s.stale ∧ fetch s = .stale b := by
  rcases fetch_cases s with ⟨hinvalid, -⟩ | ⟨-, hmeets⟩ | ⟨-, hfresh, -⟩
  · rw [hvalid] at hinvalid; cases hinvalid
  · exact hmeets
  · exact absurd hstale (hfresh a ha)

theorem step_of_fetch_trap {tr : Trap} (hrun : s.run = .running) (hfetch : fetch s = .trap tr) :
    step s = .next (takeTrap tr s) := by
  simp only [step, hrun, hfetch]

theorem step_of_fetch_stale {a : Nat} (hrun : s.run = .running) (hfetch : fetch s = .stale a) :
    step s = .refused (.staleFetch a) := by
  simp only [step, hrun, hfetch]

theorem step_of_fetch_reserved {w : InstWord} {e : DecodeError} (hrun : s.run = .running) (hfetch : fetch s = .word w)
    (hdecode : decodeWord s.params.xlen w = .error e) : step s = raise s .illegalInstruction (w.setWidth 64) := by
  simp only [step, hrun, hfetch, hdecode]

end

end Sys2Proof.Machine
end

section
/-! The statements about the encoding (`30_encoding.md`). -/

namespace Sys2Proof.Proofs

open Sys2Proof.Machine

/-- Settles O1: some row accepts the word of the instruction and reads it back, and it is the one row that does. -/
theorem decodeInvertsEncode : Obligations.DecodeInvertsEncode := by
  intro x i hwf
  have hdecode := decodeWord_encode hwf
  refine ⟨hdecode, fun rest => ?_⟩
  rw [decodeBytes_bytesOfWord, hdecode]

/-- Settles O2: the row that accepts the word is faithful. -/
theorem encodeInvertsDecode : Obligations.EncodeInvertsDecode := by
  intro x w i hdecode
  obtain ⟨r, hr, hacc, rfl⟩ := decodeWord_ok hdecode
  exact ⟨wellFormed_of_accepts hr hacc, (faithful_of_mem hr).encode_build (Row.accepts_iff.1 hacc).2⟩

/-- Settles O3: rows of two opcodes accept no common word, and the rows of one opcode are pairwise disjoint. -/
theorem opcodeRowsDisjoint : Obligations.OpcodeRowsDisjoint := accepting_length_le_one

/-- Settles O4: each word is the encoding of the instruction it stands for. -/
theorem writtenWordsDecode : Obligations.WrittenWordsDecode := by
  unfold Obligations.WrittenWordsDecode
  and_intros <;> exact decodeWord_of_encode_eq rfl (by decide)

/-- Settles O5: each clause names fields that every row of the opcode fixes, at values that no row has there. -/
theorem reservedWordsRefused : Obligations.ReservedWordsRefused :=
  ⟨fun _ _ => decodeWord_of_opcode_unused,
    fun _ _ => decodeWord_of_low_bits,
    fun _ _ => rv32_word_cases,
    fun _ _ _ => system_word_cases,
    fun _ _ => decodeWord_of_lr_rs2,
    fun _ _ hop hfunct7 => decodeWord_of_unusedFunct (unusedFunct_of_fcvt hop hfunct7),
    fun _ _ => decodeWord_of_unusedFunct,
    fun _ _ => decodeWord_of_otherFixedRs2⟩

/-- Settles O7: the three answers of the fetch, and for a word that no row accepts the decoder's refusal. -/
theorem reservedWordsAndFailedFetches : Obligations.ReservedWordsAndFailedFetches := by
  intro s hrun
  refine ⟨fun hinvalid => ?_, fun hvalid ⟨a, ha, hstale⟩ => ?_, fun hvalid hfresh hreserved => ?_⟩
  · rw [step_of_fetch_trap hrun (fetch_eq_trap hinvalid)]
    exact ⟨_, rfl, rfl⟩
  · obtain ⟨b, hb, hbstale, hfetch⟩ := fetch_eq_stale hvalid ha hstale
    exact ⟨b, hb, hbstale, step_of_fetch_stale hrun hfetch⟩
  · rw [step_of_fetch_reserved hrun (fetch_eq_word hvalid hfresh) (decodeWord_reserved hreserved)]
    exact raise_traps s _ _

end Sys2Proof.Proofs
end

section
/-! Bit-vector values as arithmetic: the form in which the statements give the results (`00_scope.md` R7). -/

namespace Sys2Proof.Machine

/-! ### Sums, differences and shifts over integers and naturals -/

theorem add_eq_ofInt_toInt {w : Nat} (x y : BitVec w) : x + y = BitVec.ofInt w (x.toInt + y.toInt) := by
  rw [BitVec.ofInt_add, BitVec.ofInt_toInt, BitVec.ofInt_toInt]

theorem sub_eq_ofInt_toInt {w : Nat} (x y : BitVec w) : x - y = BitVec.ofInt w (x.toInt - y.toInt) := by
  rw [Int.sub_eq_add_neg, BitVec.ofInt_add, BitVec.ofInt_neg, BitVec.ofInt_toInt, BitVec.ofInt_toInt,
    BitVec.sub_eq_add_neg]

theorem shiftLeft_eq_ofNat {w : Nat} (x : BitVec w) (n : Nat) : x <<< n = BitVec.ofNat w (x.toNat * 2 ^ n) := by
  rw [← Nat.shiftLeft_eq]
  rfl

theorem ushiftRight_eq_ofNat {w : Nat} (x : BitVec w) (n : Nat) : x >>> n = BitVec.ofNat w (x.toNat / 2 ^ n) := by
  rw [← Nat.shiftRight_eq_div_pow, ← BitVec.toNat_ushiftRight, BitVec.ofNat_toNat, BitVec.setWidth_eq]

theorem sshiftRight_eq_ofInt {w : Nat} (x : BitVec w) (n : Nat) :
    x.sshiftRight n = BitVec.ofInt w (x.toInt / 2 ^ n) := by
  unfold BitVec.sshiftRight
  rw [Int.shiftRight_eq_div_pow]
  norm_cast

/-- A truth value as a register holds it (`00_scope.md` R7). -/
theorem boolBits_decide (w : Nat) (p : Prop) [Decidable p] : boolBits w (decide p) = if p then 1 else 0 := by
  rw [boolBits, ← BitVec.ofNat_toNat]
  by_cases h : p
  · rw [if_pos h, decide_eq_true h]
    rfl
  · rw [if_neg h, decide_eq_false h]
    rfl

/-! ### The low bits of an address -/

/-- Bits 1:0 of a target are zero exactly when it is a multiple of 4 (`40_rv32i.md` R161). -/
theorem extractLsb'_two_eq_zero_iff {w : Nat} (target : BitVec w) :
    target.extractLsb' 0 2 = 0 ↔ target.toNat % 4 = 0 := by
  rw [← BitVec.toNat_inj, BitVec.extractLsb'_toNat, Nat.shiftRight_zero]
  rfl

/-- Clearing bit 0 rounds down to an even number (R166). -/
theorem and_not_one_eq_ofNat {w : Nat} (x : BitVec w) : x &&& ~~~(1 : BitVec w) = BitVec.ofNat w (x.toNat / 2 * 2) := by
  have hshift : x &&& ~~~(1 : BitVec w) = x >>> 1 <<< 1 := by
    apply BitVec.eq_of_getLsbD_eq
    intro i hi
    by_cases hzero : i = 0
    · simp [hzero]
    · have hindex : 1 + (i - 1) = i := by omega
      simp [hi, hzero, hindex]
  rw [hshift, shiftLeft_eq_ofNat, BitVec.toNat_ushiftRight, Nat.shiftRight_eq_div_pow, Nat.pow_one]

/-! ### Operands -/

theorem le_bits (s : State) : 32 ≤ s.bits := by
  rcases bits_cases s with h | h <;> omega

/-- An immediate is sign-extended (`30_encoding.md` R116). -/
theorem toInt_immX (s : State) (imm : BitVec 12) : (immX s imm).toInt = imm.toInt :=
  BitVec.toInt_signExtend_of_le ((by decide : 12 ≤ 32).trans (le_bits s))

/-- The immediate of the U format, times 4096 (R119). -/
theorem upperImm_eq_ofInt (s : State) (imm : BitVec 20) : upperImm s imm = BitVec.ofInt s.bits (imm.toInt * 4096) := by
  have happend : (imm ++ 0#12).toInt = imm.toInt * 4096 := by
    rw [BitVec.toInt_append_zero]
    omega
  exact congrArg (BitVec.ofInt s.bits) happend

/-- A sum with a sign-extended immediate. -/
theorem add_immX_eq_ofInt (s : State) (x : BitVec s.bits) (imm : BitVec 12) :
    x + immX s imm = BitVec.ofInt s.bits (x.toInt + imm.toInt) := by
  rw [add_eq_ofInt_toInt, toInt_immX]

/-- The effective address (`20_memory.md` R60). -/
theorem effAddr_eq_ofInt (s : State) (rs1 : XReg) (imm : BitVec 12) :
    effAddr s rs1 imm = BitVec.ofInt s.bits ((readX s.bits s rs1).toInt + imm.toInt) :=
  add_immX_eq_ofInt s _ imm

/-- The target of JALR (`40_rv32i.md` R166). -/
theorem jalrTarget_eq_ofNat (s : State) (rs1 : XReg) (imm : BitVec 12) :
    jalrTarget s rs1 imm = BitVec.ofNat s.bits
      ((BitVec.ofInt s.bits ((readX s.bits s rs1).toInt + imm.toInt)).toNat / 2 * 2) := by
  rw [jalrTarget, and_not_one_eq_ofNat, effAddr_eq_ofInt]

/-- A narrower read of a register is the wider one modulo a power of two. -/
theorem toNat_readX_of_le {k w : Nat} (s : State) (r : XReg) (h : k ≤ w) :
    (readX k s r).toNat = (readX w s r).toNat % 2 ^ k := by
  unfold readX
  split
  · simp
  · simp [Nat.mod_mod_of_dvd _ (Nat.pow_dvd_pow 2 h)]

/-- A shift by register uses `x[rs2]` modulo `XLEN` (R192). -/
theorem shiftAmount_eq_mod (s : State) (rs2 : XReg) : shiftAmount s rs2 = (readX s.bits s rs2).toNat % s.bits := by
  unfold shiftAmount State.bits
  cases s.params.xlen with
  | rv32 => exact toNat_readX_of_le s rs2 (by decide)
  | rv64 => exact toNat_readX_of_le s rs2 (by decide)

end Sys2Proof.Machine
end

section
/-! What an instruction answers, by the shared operation that its meaning is. -/

namespace Sys2Proof.Machine

section
variable {i : Instr} {s : State}

/-! ### Completion with a result -/

/-- What a meaning answers is what the operation it is made of answers. -/
theorem answers_of_exec_eq {r : Result} {P : State → State → Prop} (hexec : exec i s = r)
    (hr : ∃ t, r = .next t ∧ P s t) : Answers i s P := by
  unfold Answers
  rwa [hexec]

/-- A meaning that completes with the value `v`, said as `v'`. -/
theorem answers_of_retireX {w : Nat} {rd : XReg} {v v' : BitVec w} (hexec : exec i s = retireX rd v s) (hv : v = v') :
    Answers i s (ResultX rd v') :=
  answers_of_exec_eq hexec (hv ▸ retireX_resultX rd v s)

/-- The result written is the 64 bits that carry it, so it can be given at any width. -/
theorem ResultX.of_setWidth {w w' : Nat} {rd : XReg} {v : BitVec w} {v' : BitVec w'} {t : State}
    (h : ResultX rd v s t) (hv : v.setWidth 64 = v'.setWidth 64) : ResultX rd v' s t := by
  unfold ResultX WritesX at h ⊢
  rwa [← hv]

/-! ### Transfers (`40_rv32i.md` R161) -/

/-- A jump with the link `v` to `target`, said as `target'`. -/
theorem jumps_or_traps_of_transfer {w : Nat} {rd : XReg} {v target target' : BitVec w}
    (hexec : exec i s = transfer s (writeX rd v s) target) (htarget : target = target') :
    (target'.toNat % 4 = 0 → Answers i s (Jumps rd v target')) ∧
      (target'.toNat % 4 ≠ 0 →
        Answers i s (TrapsWith .instructionAddressMisaligned (target'.setWidth 64))) := by
  subst htarget
  simp only [ne_eq, ← extractLsb'_two_eq_zero_iff]
  refine ⟨fun haligned => answers_of_exec_eq hexec (transfer_jumps s rd v haligned),
    fun hmisaligned => answers_of_exec_eq hexec ?_⟩
  rw [transfer_of_misaligned s _ hmisaligned]
  exact raise_traps s _ _

/-- Moving `pc` to a target changes nothing else. -/
theorem setPc_goesTo {w : Nat} (target : BitVec w) (s : State) : GoesTo target s (setPc target s) :=
  ⟨fun _ => rfl, fun _ => rfl, rfl, fun _ => rfl, ⟨rfl, rfl, rfl, rfl⟩, ⟨rfl, rfl⟩, rfl⟩

/-- A meaning that is `branch` of the condition. -/
theorem branchesIf_of_branch {taken : Bool} {off : BitVec 13} {cond : Prop} (hexec : exec i s = branch s taken off)
    (hcond : taken = true ↔ cond) : BranchesIf i cond off s := by
  simp only [BranchesIf, Answers, hexec, ne_eq, ← pcPlus_eq_ofInt, ← extractLsb'_two_eq_zero_iff, ← hcond]
  rcases branch_cases s taken off with ⟨rfl, hb⟩ | ⟨rfl, haligned, hb⟩ | ⟨rfl, hmisaligned, hb⟩ <;> rw [hb]
  · exact ⟨fun _ => retire_onlyAdvances s, (nomatch ·), (nomatch ·)⟩
  · exact ⟨fun h => absurd rfl h, fun _ _ => ⟨_, rfl, setPc_goesTo _ s⟩, fun _ h => absurd haligned h⟩
  · exact ⟨fun h => absurd rfl h, fun _ h => absurd h hmisaligned, fun _ _ => raise_traps s _ _⟩

/-! ### Loads and stores (`40_rv32i.md` R162) -/

/-- A load that does not trap completes with the value read, sign-extended. -/
theorem answers_of_loadSigned {n : Nat} {rd rs1 : XReg} {imm : BitVec 12} {v : BitVec (8 * n)}
    (hexec : exec i s = loadSigned n rd rs1 imm s) (haccess : AccessOk s [.load] (effAddr s rs1 imm) n)
    (hv : s.mem.readLE (effAddr s rs1 imm) n = v) : Answers i s (ResultX rd (BitVec.ofInt s.bits v.toInt)) :=
  answers_of_retireX (hexec.trans (load_of_accessOk _ haccess)) (congrArg (BitVec.signExtend s.bits) hv)

/-- A load that does not trap completes with the value read, zero-extended. -/
theorem answers_of_loadUnsigned {n : Nat} {rd rs1 : XReg} {imm : BitVec 12} {v : BitVec (8 * n)}
    (hexec : exec i s = loadUnsigned n rd rs1 imm s) (haccess : AccessOk s [.load] (effAddr s rs1 imm) n)
    (hv : s.mem.readLE (effAddr s rs1 imm) n = v) : Answers i s (ResultX rd (BitVec.ofNat s.bits v.toNat)) := by
  rw [BitVec.ofNat_toNat]
  exact answers_of_retireX (hexec.trans (load_of_accessOk _ haccess)) (congrArg (BitVec.setWidth s.bits) hv)

/-- With `XLEN = 64` a 64-bit value is a register's value as it is. -/
theorem setWidth_ofInt_toInt_of_rv64 (hx : s.params.xlen = .rv64) (v : BitVec 64) :
    (BitVec.ofInt s.bits v.toInt).setWidth 64 = v.setWidth 64 := by
  have hbits : s.bits = 64 := by rw [State.bits, hx]; rfl
  rw [hbits, BitVec.ofInt_toInt]

/-- A store that does not trap writes the low bytes of `x[rs2]`. -/
theorem answers_of_storeX {n : Nat} {rs1 rs2 : XReg} {imm : BitVec 12} (hexec : exec i s = storeX n rs1 rs2 imm s)
    (hn : n ≤ 8) (haccess : AccessOk s [.store] (effAddr s rs1 imm) n) :
    Answers i s (StoresOnly (effAddr s rs1 imm) n (readX (8 * n) s rs2)) :=
  answers_of_exec_eq hexec
    (store_storesOnly s _ n _ (le_two_pow_bits s hn) (accessTrap_of_accessOk haccess))

end

/-! ### FENCE.I, and where a step can be refused (`40_rv32i.md` R201, `20_memory.md` R92) -/

/-- FENCE.I forgets the stale bytes and moves `pc` (R201). -/
theorem advance_syncFetch_syncs (s : State) : SyncsFetch s (advance (syncFetch s)) :=
  ⟨rfl, fun _ => rfl, fun _ => rfl, rfl, fun _ => rfl, rfl, ⟨rfl, rfl⟩, ⟨rfl, rfl⟩, rfl⟩

/-- Each of the forms answers a next state. -/
theorem ExecForm.exists_next {i : Instr} {s : State} {f : State → Result} (h : ExecForm i s.params.xlen f) :
    ∃ t, f s = .next t := by
  induction h with
  | raises | retires => exact ⟨_, rfl⟩
  | @transfers e target =>
    by_cases haligned : (target s).extractLsb' 0 2 = 0
    · exact ⟨_, transfer_of_aligned s (e s) haligned⟩
    · exact ⟨_, transfer_of_misaligned s (e s) haligned⟩
  | @checks trap _ _ _ ih =>
    beta_reduce
    cases trap s with
    | some tr => exact ⟨_, orElse_some tr s _⟩
    | none => exact ih
  | chooses _ _ _ ihf ihg =>
    beta_reduce
    split
    · exact ihf
    · exact ihg
  | only64 _ ih =>
    beta_reduce
    cases hx : s.params.xlen with
    | rv32 => exact ⟨_, when64_of_rv32 _ hx⟩
    | rv64 => rw [when64_of_rv64 _ hx]; exact ih hx
  | @rounds rm _ _ ih =>
    beta_reduce
    cases hmode : resolveRm rm s.frm with
    | some mode => rw [withMode_of_some _ hmode]; exact ih mode
    | none => exact ⟨_, withMode_of_none _ hmode⟩

/-- No instruction ends in a fault or a refusal. -/
theorem exists_exec_eq_next (i : Instr) (s : State) : ∃ t, exec i s = .next t :=
  (exec_form i s.params.xlen).exists_next

/-- A step is refused at a stale byte only. -/
theorem exists_stale_of_step_refused {s : State} {r : Refusal} (h : step s = .refused r) :
    ∃ a ∈ s.stale, r = .staleFetch a := by
  unfold step at h
  split at h
  · cases h
  · rcases fetch_cases s with ⟨-, hfetch⟩ | ⟨-, a, -, hstale, hfetch⟩ | ⟨-, -, hfetch⟩ <;> simp only [hfetch] at h
    · cases h
    · cases h; exact ⟨a, hstale, rfl⟩
    · split at h
      · next i _ =>
        obtain ⟨t, ht⟩ := exists_exec_eq_next i s
        rw [ht, followLoop_next] at h
        split at h <;> cases h
      · cases h

end Sys2Proof.Machine
end

section
/-! The statements about RV32I and the 64-bit rows of its instructions (`40_rv32i.md`, `41_rv64i.md`). -/

namespace Sys2Proof.Proofs

open Sys2Proof.Machine

/-- Settles O24: the immediate of the U format is its signed value times 4096. -/
theorem upperImmediates : Obligations.UpperImmediates := by
  intro s rd imm
  refine ⟨answers_of_retireX rfl (upperImm_eq_ofInt s imm), answers_of_retireX rfl ?_⟩
  rw [upperImm_eq_ofInt, BitVec.ofInt_add, BitVec.ofInt_natCast, BitVec.ofNat_toNat, BitVec.setWidth_eq]

/-- Settles O25: each result is the operation on `x[rs1]` and the sign-extended immediate, which has the immediate's
value. -/
theorem immediateArithmetic : Obligations.ImmediateArithmetic := by
  intro s rd rs1 imm x c
  refine ⟨?addi, ?slti, ?sltiu, ?xori, ?ori, ?andi⟩
  case addi => exact answers_of_retireX rfl (add_immX_eq_ofInt s x imm)
  case slti => exact answers_of_retireX rfl (by rw [BitVec.slt_eq_decide, toInt_immX, boolBits_decide])
  case sltiu => exact answers_of_retireX rfl (boolBits_decide _ (x.toNat < c.toNat))
  case xori | ori | andi => exact answers_of_retireX rfl rfl

/-- Settles O26: each shift is the product or the quotient by a power of two; the 64-bit rows run as `XLEN` is 64. -/
theorem immediateShifts : Obligations.ImmediateShifts := by
  refine ⟨fun s rd rs1 n => ⟨?slli32, ?srli32, ?srai32⟩, fun s rd rs1 n hx => ⟨?slli64, ?srli64, ?srai64⟩⟩
  case slli32 => exact answers_of_retireX rfl (shiftLeft_eq_ofNat _ _)
  case srli32 => exact answers_of_retireX rfl (ushiftRight_eq_ofNat _ _)
  case srai32 => exact answers_of_retireX rfl (sshiftRight_eq_ofInt _ _)
  case slli64 => exact answers_of_retireX (when64_of_rv64 _ hx) (shiftLeft_eq_ofNat _ _)
  case srli64 => exact answers_of_retireX (when64_of_rv64 _ hx) (ushiftRight_eq_ofNat _ _)
  case srai64 => exact answers_of_retireX (when64_of_rv64 _ hx) (sshiftRight_eq_ofInt _ _)

/-- Settles O27: each result is the operation on the two sources, read before `rd` is written. -/
theorem registerArithmetic : Obligations.RegisterArithmetic := by
  intro s rd rs1 rs2 x y
  refine ⟨?add, ?sub, ?slt, ?sltu, ?xor, ?or, ?and⟩
  case add => exact answers_of_retireX rfl (add_eq_ofInt_toInt x y)
  case sub => exact answers_of_retireX rfl (sub_eq_ofInt_toInt x y)
  case slt => exact answers_of_retireX rfl (boolBits_decide _ (x.toInt < y.toInt))
  case sltu => exact answers_of_retireX rfl (boolBits_decide _ (x.toNat < y.toNat))
  case xor | or | and => exact answers_of_retireX rfl rfl

/-- Settles O28: the amount is `x[rs2]` modulo `XLEN`, and each shift the product or the quotient by a power of two. -/
theorem registerShifts : Obligations.RegisterShifts := by
  intro s rd rs1 rs2 x n
  have hn : shiftAmount s rs2 = n := shiftAmount_eq_mod s rs2
  refine ⟨?sll, ?srl, ?sra⟩
  case sll => exact answers_of_retireX rfl (hn ▸ shiftLeft_eq_ofNat _ _)
  case srl => exact answers_of_retireX rfl (hn ▸ ushiftRight_eq_ofNat _ _)
  case sra => exact answers_of_retireX rfl (hn ▸ sshiftRight_eq_ofInt _ _)

/-- Settles O31: both jumps are `transfer` with a link, to the target over integers. -/
theorem jumpsLinkAndTransfer : Obligations.JumpsLinkAndTransfer := by
  intro s rd rs1 off imm
  obtain ⟨hjal, hjalTraps⟩ := jumps_or_traps_of_transfer (i := .jal rd off) rfl (pcPlus_eq_ofInt s off)
  obtain ⟨hjalr, hjalrTraps⟩ := jumps_or_traps_of_transfer (i := .jalr rd rs1 imm) rfl (jalrTarget_eq_ofNat s rs1 imm)
  exact ⟨hjal, hjalTraps, hjalr, hjalrTraps⟩

/-- Settles O32: each branch is `branch` of its condition. -/
theorem branchesTransferWhenTaken : Obligations.BranchesTransferWhenTaken := by
  intro s rs1 rs2 off x y
  refine ⟨?beq, ?bne, ?blt, ?bge, ?bltu, ?bgeu⟩
  case beq => exact branchesIf_of_branch rfl beq_iff_eq
  case bne => exact branchesIf_of_branch rfl bne_iff_ne
  case blt => exact branchesIf_of_branch rfl BitVec.slt_iff_toInt_lt
  case bge => exact branchesIf_of_branch rfl (by simp [BitVec.slt_eq_decide, x, y])
  case bltu => exact branchesIf_of_branch rfl BitVec.ult_iff_lt
  case bgeu => exact branchesIf_of_branch rfl (by simp [BitVec.ult_eq_decide, x, y])

/-- Settles O33: each load is `loadSigned` or `loadUnsigned` of its width, and the value read is made of the bytes at
the effective address. -/
theorem loadsExtend : Obligations.LoadsExtend := by
  intro s rd rs1 imm a
  refine ⟨effAddr_eq_ofInt s rs1 imm, fun hok => ⟨?lb, ?lbu⟩, fun hok => ⟨?lh, ?lhu⟩,
    fun hok => ⟨?lw, fun hx => ?lwu⟩, fun hok hx => ?ld⟩
  case lb => exact answers_of_loadSigned (n := 1) rfl hok (readLE_one s a)
  case lbu => exact answers_of_loadUnsigned (n := 1) rfl hok (readLE_one s a)
  case lh => exact answers_of_loadSigned (n := 2) rfl hok (readLE_two s a)
  case lhu => exact answers_of_loadUnsigned (n := 2) rfl hok (readLE_two s a)
  case lw => exact answers_of_loadSigned (n := 4) rfl hok (readLE_four s a)
  case lwu => exact answers_of_loadUnsigned (n := 4) (when64_of_rv64 _ hx) hok (readLE_four s a)
  case ld =>
    obtain ⟨t, hexec, hresult⟩ :=
      answers_of_loadSigned (n := 8) (i := .ld rd rs1 imm) (when64_of_rv64 _ hx) hok (readLE_eight s a)
    exact ⟨t, hexec, hresult.of_setWidth (setWidth_ofInt_toInt_of_rv64 hx _)⟩

/-- Settles O34: each store is `storeX` of its width at the effective address. -/
theorem storesWriteLowBytes : Obligations.StoresWriteLowBytes := by
  intro s rs1 rs2 imm a
  refine ⟨effAddr_eq_ofInt s rs1 imm, ?sb, ?sh, ?sw, fun hok hx => ?sd⟩
  case sb => exact answers_of_storeX (n := 1) rfl (by decide)
  case sh => exact answers_of_storeX (n := 2) rfl (by decide)
  case sw => exact answers_of_storeX (n := 4) rfl (by decide)
  case sd => exact answers_of_storeX (n := 8) (when64_of_rv64 _ hx) (by decide) hok

/-- Settles O36: FENCE is `retire`; after FENCE.I no byte is stale, and a step is refused at a stale byte only. -/
theorem fencesAdvance : Obligations.FencesAdvance := by
  intro s pred succ
  refine ⟨answers_of_exec_eq rfl (retire_onlyAdvances s), _, rfl, advance_syncFetch_syncs s, fun r hrefused => ?_⟩
  obtain ⟨a, hstale, -⟩ := exists_stale_of_step_refused hrefused
  exact List.not_mem_nil hstale

/-- Settles O37: both are `raise`, and a normal end is one of their two causes. -/
theorem environmentTraps : Obligations.EnvironmentTraps :=
  ⟨fun s => ⟨answers_of_exec_eq rfl (raise_traps s _ _), answers_of_exec_eq rfl (raise_traps s _ _)⟩,
    fun t => by simp [Trap.isNormalEnd]⟩

end Sys2Proof.Proofs
end

section
/-! The word instructions of RV64I: a 32-bit result, sign-extended (`41_rv64i.md`). -/

namespace Sys2Proof.Machine

/-- The sign extension of an arithmetic shift keeps the quotient, rounded down, as an integer (R230, R235). -/
theorem signExtend_sshiftRight_eq_ofInt {w : Nat} (w' : Nat) (x : BitVec w) (n : Nat) :
    (x.sshiftRight n).signExtend w' = BitVec.ofInt w' (x.toInt / 2 ^ n) := by
  rw [BitVec.signExtend, BitVec.toInt_sshiftRight, Int.shiftRight_eq_div_pow]
  norm_cast

/-- A sum of words with a sign-extended immediate wraps at 32 bits (R227). -/
theorem add_signExtend_imm_eq_ofInt (x : BitVec 32) (imm : BitVec 12) :
    x + imm.signExtend 32 = BitVec.ofInt 32 (x.toInt + imm.toInt) := by
  rw [add_eq_ofInt_toInt, BitVec.toInt_signExtend_of_le (by decide)]

/-- With `XLEN = 64` a meaning that completes with the sign extension of a word `v`, said as `v'` (R220). -/
theorem answers_of_retireWord {i : Instr} {s : State} {rd : XReg} {v : BitVec 32} {v' : BitVec 64}
    (hx : s.params.xlen = .rv64) (hexec : exec i s = retireWord i rd v s) (hv : v.signExtend 64 = v') :
    Answers i s (ResultX rd v') :=
  answers_of_retireX (hexec.trans (when64_of_rv64 _ hx)) hv

end Sys2Proof.Machine

namespace Sys2Proof.Proofs

open Sys2Proof.Machine

/-- Settles O29: each completes with a word computed from the low word of `x[rs1]`, and the shifts are the product or
the quotient by a power of two. -/
theorem wordImmediates : Obligations.WordImmediates := by
  intro s rd rs1 imm n hx x
  refine ⟨?addiw, ?slliw, ?srliw, ?sraiw⟩
  case addiw =>
    exact answers_of_retireWord hx rfl (congrArg (BitVec.signExtend 64) (add_signExtend_imm_eq_ofInt x imm))
  case slliw => exact answers_of_retireWord hx rfl (congrArg (BitVec.signExtend 64) (shiftLeft_eq_ofNat x n.toNat))
  case srliw => exact answers_of_retireWord hx rfl (congrArg (BitVec.signExtend 64) (ushiftRight_eq_ofNat x n.toNat))
  case sraiw => exact answers_of_retireWord hx rfl (signExtend_sshiftRight_eq_ofInt 64 x n.toNat)

/-- Settles O30: as for the immediates, with the amount the low five bits of `x[rs2]`, which are `x[rs2]` modulo 32. -/
theorem wordRegisters : Obligations.WordRegisters := by
  intro s rd rs1 rs2 hx x y n
  have hn : (readX 5 s rs2).toNat = n := toNat_readX_of_le s rs2 (by decide)
  refine ⟨?addw, ?subw, ?sllw, ?srlw, ?sraw⟩
  case addw => exact answers_of_retireWord hx rfl (congrArg (BitVec.signExtend 64) (add_eq_ofInt_toInt x y))
  case subw => exact answers_of_retireWord hx rfl (congrArg (BitVec.signExtend 64) (sub_eq_ofInt_toInt x y))
  case sllw => exact answers_of_retireWord hx rfl (congrArg (BitVec.signExtend 64) (hn ▸ shiftLeft_eq_ofNat x _))
  case srlw => exact answers_of_retireWord hx rfl (congrArg (BitVec.signExtend 64) (hn ▸ ushiftRight_eq_ofNat x _))
  case sraw => exact answers_of_retireWord hx rfl (hn ▸ signExtend_sshiftRight_eq_ofInt 64 x _)

end Sys2Proof.Proofs
end

section
/-! The M extension's results as arithmetic over integers and naturals (`42_m_muldiv.md`). -/

namespace Sys2Proof.Machine

variable {w : Nat}

/-! ### Products -/

/-- The low half of a product is the same for signed and unsigned factors (R241). -/
theorem mul_eq_ofInt_toInt (x y : BitVec w) : x * y = BitVec.ofInt w (x.toInt * y.toInt) := by
  rw [BitVec.ofInt_mul, BitVec.ofInt_toInt, BitVec.ofInt_toInt]

/-- The high half of a product of naturals is their quotient by `2 ^ w` (R244). -/
theorem highHalf_natCast_mul (m n : Nat) : (highHalf (m * n) : BitVec w) = BitVec.ofNat w (m * n / 2 ^ w) := by
  rw [highHalf, ← BitVec.ofInt_natCast]
  norm_cast

/-! ### All ones -/

theorem allOnes_eq_ofInt_neg_one : BitVec.allOnes w = BitVec.ofInt w (-1) := by
  rw [← BitVec.neg_one_eq_allOnes, BitVec.ofInt_neg, BitVec.ofInt_ofNat]

theorem allOnes_eq_ofNat : BitVec.allOnes w = BitVec.ofNat w (2 ^ w - 1) := by
  rw [← BitVec.toNat_allOnes, BitVec.ofNat_toNat, BitVec.setWidth_eq]

/-! ### The zero divisor, and unsigned division by any other (R240, R246, R248) -/

section
variable {x y : BitVec w}

theorem divSigned_of_zero (hy : y.toNat = 0) : divSigned x y = BitVec.allOnes w :=
  if_pos (BitVec.eq_of_toNat_eq hy)

theorem divUnsigned_of_zero (hy : y.toNat = 0) : divUnsigned x y = BitVec.allOnes w :=
  if_pos (BitVec.eq_of_toNat_eq hy)

theorem remSigned_of_zero (hy : y.toNat = 0) : remSigned x y = x := if_pos (BitVec.eq_of_toNat_eq hy)

theorem remUnsigned_of_zero (hy : y.toNat = 0) : remUnsigned x y = x := if_pos (BitVec.eq_of_toNat_eq hy)

theorem divUnsigned_of_ne_zero (hy : y.toNat ≠ 0) : divUnsigned x y = BitVec.ofNat w (x.toNat / y.toNat) :=
  if_neg (BitVec.toNat_ne.2 hy)

theorem remUnsigned_of_ne_zero (hy : y.toNat ≠ 0) : remUnsigned x y = BitVec.ofNat w (x.toNat % y.toNat) :=
  if_neg (BitVec.toNat_ne.2 hy)

/-! ### Signed overflow (R240) -/

/-- The overflow that the meanings test for, by its values. -/
theorem eq_intMin_and_eq_allOnes_iff (hw : 0 < w) :
    x = BitVec.intMin w ∧ y = BitVec.allOnes w ↔ x.toInt = -2 ^ (w - 1) ∧ y.toInt = -1 := by
  rw [← BitVec.toInt_inj, ← BitVec.toInt_inj, BitVec.toInt_intMin_of_pos hw, BitVec.toInt_allOnes, if_pos hw]

theorem ne_zero_of_toInt_eq_neg_one (hy : y.toInt = -1) : y ≠ 0 := by
  rintro rfl
  exact absurd (BitVec.toInt_zero.symm.trans hy) (by decide)

theorem divSigned_of_overflow (hw : 0 < w) (h : x.toInt = -2 ^ (w - 1) ∧ y.toInt = -1) : divSigned x y = x :=
  (if_neg (ne_zero_of_toInt_eq_neg_one h.2)).trans (if_pos ((eq_intMin_and_eq_allOnes_iff hw).2 h))

theorem remSigned_of_overflow (hw : 0 < w) (h : x.toInt = -2 ^ (w - 1) ∧ y.toInt = -1) : remSigned x y = 0 :=
  (if_neg (ne_zero_of_toInt_eq_neg_one h.2)).trans (if_pos ((eq_intMin_and_eq_allOnes_iff hw).2 h))

/-! ### Every other signed division -/

/-- Truncated division is the quotient and remainder that R240 describes. -/
theorem quotRem_tdiv_tmod (m : Int) {n : Int} (hn : n ≠ 0) : QuotRem m n (m.tdiv n) (m.tmod n) := by
  refine ⟨(Int.mul_tdiv_add_tmod m n).symm, ?small, fun hm => Int.tmod_nonneg n hm.le, fun hm => ?nonpos⟩
  case small =>
    rw [Int.natAbs_tmod]
    exact Nat.mod_lt _ (Int.natAbs_pos.2 hn)
  case nonpos =>
    have hneg : 0 ≤ (-m).tmod n := Int.tmod_nonneg n (by omega)
    rw [Int.neg_tmod] at hneg
    omega

/-- Without overflow the quotient fits the width, so its value is the truncated quotient itself (R245). -/
theorem toInt_divSigned (hy : y ≠ 0) (h : ¬ (x = BitVec.intMin w ∧ y = BitVec.allOnes w)) :
    (divSigned x y).toInt = x.toInt.tdiv y.toInt := by
  have hfits : (x.sdiv y).toInt = x.toInt.tdiv y.toInt :=
    BitVec.toInt_sdiv_of_ne_or_ne x y (by rwa [BitVec.neg_one_eq_allOnes, ne_eq, ne_eq, ← not_and_or])
  rw [divSigned, if_neg hy, if_neg h, ← hfits, BitVec.ofInt_toInt]

/-- The remainder fits the width (R247). -/
theorem toInt_remSigned (hy : y ≠ 0) (h : ¬ (x = BitVec.intMin w ∧ y = BitVec.allOnes w)) :
    (remSigned x y).toInt = x.toInt.tmod y.toInt := by
  rw [remSigned, if_neg hy, if_neg h, ← Int.tmod_def, ← BitVec.toInt_srem, BitVec.ofInt_toInt]

/-- The values of the two signed results are the quotient and the remainder of R240. -/
theorem quotRem_divSigned_remSigned (hw : 0 < w) (hy : y.toNat ≠ 0)
    (h : ¬ (x.toInt = -2 ^ (w - 1) ∧ y.toInt = -1)) :
    QuotRem x.toInt y.toInt (divSigned x y).toInt (remSigned x y).toInt := by
  rw [← eq_intMin_and_eq_allOnes_iff hw] at h
  have hne : y ≠ 0 := BitVec.toNat_ne.2 hy
  rw [toInt_divSigned hne h, toInt_remSigned hne h]
  have hn : y.toInt ≠ 0 := by rwa [← BitVec.toInt_zero (w := w), BitVec.toInt_ne]
  exact quotRem_tdiv_tmod x.toInt hn

end

/-! ### The word forms -/

/-- With `XLEN = 64` a meaning that completes with the sign extension of a word, the word said another way (R249). -/
theorem answers_of_retireWord_signExtend {i : Instr} {s : State} {rd : XReg} {v v' : BitVec 32}
    (hx : s.params.xlen = .rv64) (hexec : exec i s = retireWord i rd v s) (hv : v = v') :
    Answers i s (ResultX rd (v'.signExtend 64)) :=
  answers_of_retireWord hx hexec (congrArg (BitVec.signExtend 64) hv)

end Sys2Proof.Machine

namespace Sys2Proof.Proofs

open Sys2Proof.Machine

/-- Settles O38: the low half wraps as the product does; the high halves are `highHalf` of the exact product. -/
theorem multiplies : Obligations.Multiplies := by
  intro s rd rs1 rs2 x y
  refine ⟨?mul, ?mulh, ?mulhsu, ?mulhu⟩
  case mul => exact answers_of_retireX rfl (mul_eq_ofInt_toInt x y)
  case mulh | mulhsu => exact answers_of_retireX rfl rfl
  case mulhu => exact answers_of_retireX rfl (highHalf_natCast_mul x.toNat y.toNat)

/-- Settles O39: the quotient and the remainder of the third clause are the values of the two signed results. -/
theorem divides : Obligations.Divides := by
  intro s rd rs1 rs2 x y overflow
  have hw : 0 < s.bits := (by decide : 0 < 32).trans_le (le_bits s)
  refine ⟨fun hy => ⟨?div0, ?divu0, ?rem0, ?remu0⟩, fun ho => ⟨?divMin, ?remMin⟩,
    fun hy ho => ⟨(divSigned x y).toInt, (remSigned x y).toInt, quotRem_divSigned_remSigned hw hy ho,
      BitVec.le_toInt _, BitVec.toInt_lt, ?div, ?rem⟩, fun hy => ⟨?divu, ?remu⟩⟩
  case div0 => exact answers_of_retireX rfl ((divSigned_of_zero hy).trans allOnes_eq_ofInt_neg_one)
  case divu0 => exact answers_of_retireX rfl ((divUnsigned_of_zero hy).trans allOnes_eq_ofNat)
  case rem0 => exact answers_of_retireX rfl (remSigned_of_zero hy)
  case remu0 => exact answers_of_retireX rfl (remUnsigned_of_zero hy)
  case divMin => exact answers_of_retireX rfl (divSigned_of_overflow hw ho)
  case remMin => exact answers_of_retireX rfl (remSigned_of_overflow hw ho)
  case div | rem => exact answers_of_retireX rfl BitVec.ofInt_toInt.symm
  case divu => exact answers_of_retireX rfl (divUnsigned_of_ne_zero hy)
  case remu => exact answers_of_retireX rfl (remUnsigned_of_ne_zero hy)

/-- Settles O40: the same results at width 32; the sign extension of a word is its signed value at width 64. -/
theorem wordMultiplyDivide : Obligations.WordMultiplyDivide := by
  intro s rd rs1 rs2 hx x y overflow
  have hw : 0 < 32 := by decide
  have hones : (BitVec.allOnes 32).signExtend 64 = BitVec.ofInt 64 (-1) := by decide
  refine ⟨?mulw, fun hy => ⟨?divw0, ?divuw0, ?remw0, ?remuw0⟩, fun ho => ⟨?divwMin, ?remwMin⟩,
    fun hy ho => ⟨(divSigned x y).toInt, (remSigned x y).toInt, quotRem_divSigned_remSigned hw hy ho, ?divw, ?remw⟩,
    fun hy => ⟨?divuw, ?remuw⟩⟩
  case mulw => exact answers_of_retireWord_signExtend hx rfl (mul_eq_ofInt_toInt x y)
  case divw0 => exact hones ▸ answers_of_retireWord_signExtend hx rfl (divSigned_of_zero hy)
  case divuw0 => exact hones ▸ answers_of_retireWord_signExtend hx rfl (divUnsigned_of_zero hy)
  case remw0 => exact answers_of_retireWord_signExtend hx rfl (remSigned_of_zero hy)
  case remuw0 => exact answers_of_retireWord_signExtend hx rfl (remUnsigned_of_zero hy)
  case divwMin =>
    have hmin : x.signExtend 64 = BitVec.ofInt 64 (-2 ^ 31) := congrArg (BitVec.ofInt 64) ho.1
    exact hmin ▸ answers_of_retireWord_signExtend hx rfl (divSigned_of_overflow hw ho)
  case remwMin => exact answers_of_retireWord_signExtend hx rfl (remSigned_of_overflow hw ho)
  case divw | remw => exact answers_of_retireWord hx rfl rfl
  case divuw => exact answers_of_retireWord_signExtend hx rfl (divUnsigned_of_ne_zero hy)
  case remuw => exact answers_of_retireWord_signExtend hx rfl (remUnsigned_of_ne_zero hy)

end Sys2Proof.Proofs
end

section
/-! The reservation and the model's own fields, which only LR and SC change (`43_a_atomics.md` R261). -/

namespace Sys2Proof.Machine

section
variable {i : Instr} {x : XLen} {e : State → State}

theorem Edit.retryLoop_eq (h : Edit i x e) (s : State) : (e s).retryLoop = s.retryLoop := by
  induction h with
  | keep | fcsr | sync | reserve | unreserve => rfl
  | store _ _ _ _ ih | writeX _ _ _ _ ih | writeF _ _ _ ih => exact ih

theorem Edit.reservation_eq (h : Edit i x e) (s : State) (hi : touchesReservation i = false) :
    (e s).reservation = s.reservation := by
  induction h with
  | keep | fcsr | sync => rfl
  | reserve htouches | unreserve htouches => rw [hi] at htouches; cases htouches
  | store _ _ _ _ ih | writeX _ _ _ _ ih | writeF _ _ _ ih => exact ih

theorem Edit.scDraws_eq (h : Edit i x e) (s : State) (hi : touchesReservation i = false) :
    (e s).scDraws = s.scDraws := by
  induction h with
  | keep | fcsr | sync | reserve => rfl
  | unreserve htouches => rw [hi] at htouches; cases htouches
  | store _ _ _ _ ih | writeX _ _ _ _ ih | writeF _ _ _ ih => exact ih

end

end Sys2Proof.Machine
end

section
/-! What LR, SC and the AMOs answer, by the shared operation that their meaning is (`43_a_atomics.md` R260 to R262). -/

namespace Sys2Proof.Machine

/-! ### Values -/

section
variable {w : Nat} (t v : BitVec w)

theorem minS_eq_ofInt : minS t v = BitVec.ofInt w (min t.toInt v.toInt) := by
  rw [minS, BitVec.slt_eq_decide]
  by_cases hlt : t.toInt < v.toInt
  · simp [hlt, min_eq_left hlt.le]
  · simp [hlt, min_eq_right (not_lt.1 hlt)]

theorem maxS_eq_ofInt : maxS t v = BitVec.ofInt w (max t.toInt v.toInt) := by
  rw [maxS, BitVec.slt_eq_decide]
  by_cases hlt : t.toInt < v.toInt
  · simp [hlt, max_eq_right hlt.le]
  · simp [hlt, max_eq_left (not_lt.1 hlt)]

theorem minU_eq_ofNat : minU t v = BitVec.ofNat w (min t.toNat v.toNat) := by
  rw [minU, BitVec.ult_eq_decide]
  by_cases hlt : t.toNat < v.toNat
  · simp [hlt, min_eq_left hlt.le]
  · simp [hlt, min_eq_right (not_lt.1 hlt)]

theorem maxU_eq_ofNat : maxU t v = BitVec.ofNat w (max t.toNat v.toNat) := by
  rw [maxU, BitVec.ult_eq_decide]
  by_cases hlt : t.toNat < v.toNat
  · simp [hlt, max_eq_right hlt.le]
  · simp [hlt, max_eq_left (not_lt.1 hlt)]

end

/-! ### The reservation set -/

/-- A naturally aligned access no wider than the grain lies in the set that contains its address (R261 (a)). -/
theorem reservationSet_covers {p : Params} {addr n : Nat} (hdvd : n ∣ p.resGrain) (haligned : addr % n = 0) :
    (reservationSet p addr).covers addr n = true := by
  have hpos : 0 < p.resGrain := Nat.two_pow_pos _
  obtain ⟨c, hc⟩ : n ∣ addr % p.resGrain := (Nat.dvd_mod_iff hdvd).2 (Nat.dvd_of_mod_eq_zero haligned)
  obtain ⟨d, hd⟩ := hdvd
  have hlt : n * c < n * d := hc ▸ hd ▸ Nat.mod_lt addr hpos
  have hfits : n * c + n ≤ n * d := Nat.mul_le_mul_left n (Nat.lt_of_mul_lt_mul_left hlt)
  have hsplit : addr / p.resGrain * p.resGrain + addr % p.resGrain = addr := Nat.div_add_mod' addr p.resGrain
  rw [Reservation.covers, Bool.and_eq_true, decide_eq_true_eq, decide_eq_true_eq]
  simp only [reservationSet]
  omega

/-- Legal parameters make the grain a multiple of 4 bytes (`00_scope.md` R5). -/
theorem four_dvd_resGrain {p : Params} (hp : p.wf = true) : 4 ∣ p.resGrain := by
  simp only [Params.wf, Bool.and_eq_true, decide_eq_true_eq] at hp
  obtain ⟨⟨-, hmin⟩, -⟩ := hp
  refine Nat.pow_dvd_pow 2 (le_trans ?_ hmin : 2 ≤ p.resGrainLog2)
  cases p.xlen <;> decide

/-- With `XLEN = 64` they make it a multiple of 8 bytes. -/
theorem eight_dvd_resGrain {p : Params} (hp : p.wf = true) (hx : p.xlen = .rv64) : 8 ∣ p.resGrain := by
  simp only [Params.wf, hx, Bool.and_eq_true, decide_eq_true_eq] at hp
  obtain ⟨⟨-, hmin⟩, -⟩ := hp
  exact Nat.pow_dvd_pow 2 (hmin : 3 ≤ p.resGrainLog2)

/-! ### LR -/

section
variable {i : Instr} {s t : State} {n : Nat} {rd rs1 rs2 : XReg}

/-- An LR that does not trap: the value in `x[rd]`, the set around the access reserved, nothing else (R264). -/
theorem loadReserve_reserves (hdvd : n ∣ s.params.resGrain) (haccess : AccessOk s lrKinds (readX s.bits s rs1) n) :
    ∃ t, loadReserve n rd rs1 s = .next t ∧
      Reserves rd ((s.mem.readLE (readX s.bits s rs1) n).signExtend s.bits) (readX s.bits s rs1) n s t := by
  rw [loadReserve_of_accessOk n rd rs1 s haccess]
  have hcovers := reservationSet_covers hdvd haccess.1
  rw [Reservation.covers, Bool.and_eq_true, decide_eq_true_eq, decide_eq_true_eq] at hcovers
  refine ⟨_, rfl, fun r => ?_, ⟨_, rfl, rfl, Nat.mul_mod_left _ _, hcovers⟩, fun _ => rfl, rfl, fun _ => rfl, rfl,
    ⟨rfl, rfl⟩, ⟨rfl, rfl⟩, rfl⟩
  show readX 64 (writeX rd _ (reserve _ s)) r = _
  rw [readX_writeX, BitVec.setWidth_eq]
  rfl

/-- A meaning that is `loadReserve`, with the value read said as `v`. -/
theorem answers_of_loadReserve {v : BitVec (8 * n)} (hexec : exec i s = loadReserve n rd rs1 s)
    (hdvd : n ∣ s.params.resGrain) (haccess : AccessOk s lrKinds (readX s.bits s rs1) n)
    (hv : s.mem.readLE (readX s.bits s rs1) n = v) :
    Answers i s (Reserves rd (BitVec.ofInt s.bits v.toInt) (readX s.bits s rs1) n) :=
  answers_of_exec_eq hexec (hv ▸ loadReserve_reserves hdvd haccess)

/-- The value written is the 64 bits that carry it, so it can be given at any width. -/
theorem Reserves.of_setWidth {w v v' : Nat} {value : BitVec v} {value' : BitVec v'} {addr : BitVec w}
    (h : Reserves rd value addr n s t) (hvalue : value.setWidth 64 = value'.setWidth 64) :
    Reserves rd value' addr n s t := by
  unfold Reserves WritesX at h ⊢
  rwa [← hvalue]

/-! ### SC -/

/-- A meaning that is `storeConditional` fails without a reservation that holds the bytes, and with one does as the
parameter and the oracle say (R262). -/
theorem scOutcome_of_storeConditional (hexec : exec i s = storeConditional n rd rs1 rs2 s) (hn : n ≤ 8)
    (haccess : AccessOk s scKinds (readX s.bits s rs1) n) :
    ScOutcome i rd (readX s.bits s rs1) n (readX (8 * n) s rs2) s := by
  obtain ⟨t, ht, houtcome, hdraws⟩ := storeConditional_of_accessOk n rd rs1 rs2 s hn haccess
  rw [endReservation_scDraws] at hdraws
  unfold ScOutcome Answers
  rw [hexec, ht, ← reserved_iff]
  refine ⟨fun hfree => ⟨t, rfl, ?_⟩, fun hheld hsure => ⟨t, rfl, ?_⟩, fun hheld hmay => ⟨t, rfl, ?_⟩⟩
  · simpa [scSucceeds, hfree] using And.intro houtcome hdraws
  · simpa [scSucceeds, hheld, hsure] using And.intro houtcome hdraws
  · simpa [scSucceeds, oracleAllows, hheld, hmay] using And.intro houtcome hdraws

/-! ### AMOs -/

/-- A meaning that is `amo`, with the old value said as `old` and the new one as `new` (R266). -/
theorem answers_of_amo {op : BitVec (8 * n) → BitVec (8 * n) → BitVec (8 * n)} {old new : BitVec (8 * n)}
    (hexec : exec i s = amo n op rd rs1 rs2 s) (hn : n ≤ 8) (haccess : AccessOk s amoKinds (readX s.bits s rs1) n)
    (hold : s.mem.readLE (readX s.bits s rs1) n = old) (hnew : op old (readX (8 * n) s rs2) = new) :
    Answers i s (AmoUpdates rd (readX s.bits s rs1) n old new) := by
  subst hold hnew
  exact answers_of_exec_eq hexec (amo_updates n op rd rs1 rs2 s hn haccess)

end

end Sys2Proof.Machine
end

section
/-! The statements about single atomic instructions (`43_a_atomics.md`). -/

namespace Sys2Proof.Proofs

open Sys2Proof.Machine

/-- Settles O19: no edit but those of LR and SC changes the reservation or consults the oracle, and none changes the
record; moving `pc` and trapping change none of the three. -/
theorem onlyLrScTouchReservation : Obligations.OnlyLrScTouchReservation := by
  intro i s t hexec
  cases exec_successor hexec with
  | traps => exact ⟨rfl, fun _ => ⟨rfl, rfl⟩⟩
  | advances he | goes _ he =>
    exact ⟨he.retryLoop_eq s, fun hi => ⟨he.reservation_eq s hi, he.scDraws_eq s hi⟩⟩

/-- Settles O41: both forms are `loadReserve` of their width, which the grain of legal parameters is a multiple of. -/
theorem loadReservedReserves : Obligations.LoadReservedReserves := by
  intro s aq rl rd rs1 hwf a
  refine ⟨fun hok => ?lrW, fun hok hx => ?lrD⟩
  case lrW => exact answers_of_loadReserve (n := 4) rfl (four_dvd_resGrain hwf) hok (readLE_four s a)
  case lrD =>
    obtain ⟨t, hexec, hreserves⟩ := answers_of_loadReserve (n := 8) (i := .lrD aq rl rd rs1) (when64_of_rv64 _ hx)
      (eight_dvd_resGrain hwf hx) hok (readLE_eight s a)
    exact ⟨t, hexec, hreserves.of_setWidth (setWidth_ofInt_toInt_of_rv64 hx _)⟩

/-- Settles O42: both forms are `storeConditional` of their width. -/
theorem storeConditionalOutcomes : Obligations.StoreConditionalOutcomes := by
  intro s aq rl rd rs1 rs2
  refine ⟨fun hok => ?scW, fun hok hx => ?scD⟩
  case scW => exact scOutcome_of_storeConditional (n := 4) rfl (by decide) hok
  case scD => exact scOutcome_of_storeConditional (n := 8) (when64_of_rv64 _ hx) (by decide) hok

/-- Settles O43: each AMO is `amo` of its width and operation; the sum, the minima and the maxima have the values that
the statement gives over integers and naturals. -/
theorem atomicUpdates : Obligations.AtomicUpdates := by
  intro s aq rl rd rs1 rs2 a
  constructor
  case left =>
    intro hok t v
    have answers {i : Instr} {op : BitVec 32 → BitVec 32 → BitVec 32} {new : BitVec 32}
        (hexec : exec i s = amo 4 op rd rs1 rs2 s) (hnew : op t v = new) : Answers i s (AmoUpdates rd a 4 t new) :=
      answers_of_amo (n := 4) hexec (by decide) hok (readLE_four s a) hnew
    exact ⟨answers (op := fun _ v => v) rfl rfl, answers (op := (· + ·)) rfl (add_eq_ofInt_toInt t v),
      answers (op := (· ^^^ ·)) rfl rfl, answers (op := (· ||| ·)) rfl rfl, answers (op := (· &&& ·)) rfl rfl,
      answers (op := minS) rfl (minS_eq_ofInt t v), answers (op := maxS) rfl (maxS_eq_ofInt t v),
      answers (op := minU) rfl (minU_eq_ofNat t v), answers (op := maxU) rfl (maxU_eq_ofNat t v)⟩
  case right =>
    intro hok hx t v
    have answers {i : Instr} {op : BitVec 64 → BitVec 64 → BitVec 64} {new : BitVec 64}
        (hexec : exec i s = when64 i s (amo 8 op rd rs1 rs2 s)) (hnew : op t v = new) :
        Answers i s (AmoUpdates rd a 8 t new) :=
      answers_of_amo (n := 8) (hexec.trans (when64_of_rv64 _ hx)) (by decide) hok (readLE_eight s a) hnew
    exact ⟨answers (op := fun _ v => v) rfl rfl, answers (op := (· + ·)) rfl (add_eq_ofInt_toInt t v),
      answers (op := (· ^^^ ·)) rfl rfl, answers (op := (· ||| ·)) rfl rfl, answers (op := (· &&& ·)) rfl rfl,
      answers (op := minS) rfl (minS_eq_ofInt t v), answers (op := maxS) rfl (maxS_eq_ofInt t v),
      answers (op := minU) rfl (minU_eq_ofNat t v), answers (op := maxU) rfl (maxU_eq_ofNat t v)⟩

end Sys2Proof.Proofs
end

section
/-! Accesses and steps after which the hart runs on, so that no trap was taken (`60_exceptions.md` R424). -/

namespace Sys2Proof.Machine

section
variable {i : Instr} {s t : State}

/-- An access that took no trap was aligned and valid. -/
theorem accessOk_of_running {w n : Nat} {mis ref : Cause} {kinds : List AccessKind} {addr : BitVec w} {k : Result}
    (hnext : orElse (accessTrap s mis ref kinds addr n) s k = .next t) (ht : t.run = .running) :
    AccessOk s kinds addr n := by
  rcases accessTrap_cases s mis ref kinds addr n with ⟨-, htrap⟩ | ⟨-, -, htrap⟩ | ⟨haligned, hvalid, -⟩
  · rw [htrap, orElse_some] at hnext; cases hnext; cases ht
  · rw [htrap, orElse_some] at hnext; cases hnext; cases ht
  · exact ⟨haligned, hvalid⟩

/-- A 64-bit row that took no trap ran with `XLEN = 64`. -/
theorem rv64_of_running {k : Result} (hnext : when64 i s k = .next t) (ht : t.run = .running) :
    s.params.xlen = .rv64 := by
  cases hx : s.params.xlen with
  | rv32 => rw [when64_of_rv32 k hx] at hnext; cases hnext; cases ht
  | rv64 => rfl

/-- Only a running hart steps (`60_exceptions.md` R446). -/
theorem running_of_step (h : step s = .next t) : s.run = .running := by
  unfold step at h
  split at h
  · cases h
  · next hrun => exact hrun

/-- A step after which the hart runs on executed the instruction at `pc` and brought the record of its LR/SC loop up to
date. -/
theorem exec_of_step_running (h : step s = .next t) (ht : t.run = .running) :
    ∃ i u, instrAt s (readPc s.bits s) = some i ∧ exec i s = .next u ∧ u.run = .running ∧
      t = setLoop (nextLoop i s u) u := by
  simp only [step, running_of_step h] at h
  rcases fetch_cases s with ⟨-, hfetch⟩ | ⟨-, a, -, -, hfetch⟩ | ⟨-, -, hfetch⟩ <;> simp only [hfetch] at h
  · cases h; cases ht
  · cases h
  · split at h
    · next i hdecode =>
      obtain ⟨u, hexec, rfl⟩ := followLoop_cases h
      exact ⟨i, u, by rw [instrAt, hdecode]; rfl, hexec, ht, by rw [if_pos ht]; rfl⟩
    · cases h; cases ht

/-- Where the hart runs on, `pc` is a carried `XLEN`-bit value (`10_state.md` R23). -/
theorem Successor.pc_fits (h : Successor i s t) (ht : t.run = .running) : t.pc.toNat < 2 ^ t.bits := by
  cases h with
  | traps => cases ht
  | advances => exact toNat_setWidth_lt _ _
  | goes _ he => exact (toNat_setWidth_lt s _).trans_le (congrArg (2 ^ ·) (bits_congr (he.params_eq s))).ge

end

end Sys2Proof.Machine
end

section
/-! Where `pc` stands in an LR/SC sequence placed contiguously (`43_a_atomics.md` R263). -/

namespace Sys2Proof.Machine

/-- The address of the LR, as `pc` holds it. -/
def lrPc (start : Word) (s : State) : Word := (start.setWidth s.bits).setWidth 64

section
variable {start : Word} {s t : State} {k : Nat}

theorem bits_le (s : State) : s.bits ≤ 64 := by
  rcases bits_cases s with h | h <;> omega

theorem setWidth_carried (s : State) (v : BitVec s.bits) : (v.setWidth 64).setWidth s.bits = v := by
  rw [BitVec.setWidth_setWidth_of_le v (bits_le s), BitVec.setWidth_eq]

theorem setWidth_lrPc (start : Word) (s : State) : (lrPc start s).setWidth s.bits = start.setWidth s.bits :=
  setWidth_carried s _

theorem lrPc_congr (start : Word) (h : t.params = s.params) : lrPc start t = lrPc start s := by
  rw [lrPc, lrPc, bits_congr h]

/-- A hart at the LR whose `pc` fits `XLEN` bits has its address in `pc`. -/
theorem pc_eq_lrPc (hat : AtInstr start 0 s) (hfits : s.pc.toNat < 2 ^ s.bits) : s.pc = lrPc start s := by
  have hlow : s.pc.setWidth s.bits = start.setWidth s.bits := hat.trans (BitVec.add_zero _)
  apply BitVec.eq_of_toNat_eq
  rw [lrPc, ← hlow, BitVec.toNat_setWidth_of_le (bits_le s), BitVec.toNat_setWidth, Nat.mod_eq_of_lt hfits]

/-- The offset from the LR of instruction `k` of a sequence of at most 17. -/
theorem AtInstr.loopOffset_lrPc (hat : AtInstr start k s) (hk : k ≤ 16) : loopOffset (lrPc start s) s = 4 * k := by
  have hlt : 4 * k < 2 ^ s.bits :=
    (by omega : 4 * k < 2 ^ 32).trans_le (Nat.pow_le_pow_right (by decide) (le_bits s))
  rw [loopOffset, setWidth_lrPc, show readPc s.bits s = _ from hat, sequenceAddr, add_sub_cancel_left,
    BitVec.toNat_ofNat, Nat.mod_eq_of_lt hlt]

/-- Where `pc` advances, the hart goes on to the next instruction of the sequence. -/
theorem AtInstr.succ (hat : AtInstr start k s) (hparams : t.params = s.params) (hpc : PcAdvances s t) :
    AtInstr start (k + 1) t := by
  have hnext : (4 : BitVec s.bits) = BitVec.ofNat s.bits 4 := rfl
  unfold AtInstr readPc sequenceAddr at hat ⊢
  rw [bits_congr hparams, hpc, setWidth_carried, readPc, hat, hnext, BitVec.add_assoc, ← BitVec.ofNat_add]
  rfl

/-- The sequence before an SC is allowed if every instruction between LR and SC is (R263). -/
theorem AtInstr.sequenceAllowed {len : Nat} (hat : AtInstr start (len + 1) s) (hlen : len ≤ 14)
    (hbetween : ∀ k, 1 ≤ k → k ≤ len →
      ∃ i, instrAt s (sequenceAddr s start k) = some i ∧ allowedBetween i = true) :
    sequenceAllowed (lrPc start s) s = true := by
  unfold Machine.sequenceAllowed
  rw [hat.loopOffset_lrPc (by omega), setWidth_lrPc, Bool.and_eq_true, decide_eq_true_eq, List.all_eq_true]
  refine ⟨by omega, fun k hk => ?_⟩
  rw [List.mem_range] at hk
  obtain ⟨i, hi, hallowed⟩ := hbetween (k + 1) (by omega) (by omega)
  have haddr : start.setWidth s.bits + 4 + BitVec.ofNat s.bits (4 * k) = sequenceAddr s start (k + 1) := by
    rw [sequenceAddr, Nat.mul_add, Nat.add_comm, BitVec.ofNat_add, ← BitVec.add_assoc]
    rfl
  rw [haddr, allowedAt, readLE_four]
  unfold instrAt at hi
  split
  · next j hdecode =>
    rw [hdecode] at hi
    cases hi
    exact hallowed
  · next hdecode => rw [hdecode] at hi; cases hi

end

end Sys2Proof.Machine
end

section
/-! One step of a constrained LR/SC loop: what it makes of the record, the reservation and the count of consultations
(`43_a_atomics.md` R263; log 7). -/

namespace Sys2Proof.Machine

/-! ### LR and SC, whatever their width -/

section
variable {i : Instr} {s t : State} {m n : Nat}

theorem reserved_congr (h : t.reservation = s.reservation) (addr n : Nat) : reserved t addr n = reserved s addr n := by
  unfold reserved
  rw [h]

theorem reserved_of_loadReserve {rd rs1 : XReg} (hdvd : n ∣ s.params.resGrain)
    (hload : loadReserve n rd rs1 s = .next t) (ht : t.run = .running) :
    reserved t (readX s.bits s rs1).toNat n = true ∧ t.scDraws = s.scDraws := by
  obtain ⟨u, hu, -, ⟨r, hr, -, -, hcovers⟩, -, -, -, -, ⟨hdraws, -⟩, -⟩ :=
    loadReserve_reserves (rd := rd) hdvd (accessOk_of_running hload ht)
  rw [hload] at hu
  cases hu
  exact ⟨reserved_iff.2 ⟨r, hr, hcovers⟩, hdraws⟩

/-- An LR that took no trap has reserved its bytes and consulted no oracle (R261 (a)). -/
theorem reserved_of_lrAccess (hlr : lrAccess s i = some (m, n)) (hwf : s.params.wf = true)
    (hexec : exec i s = .next t) (ht : t.run = .running) : reserved t m n = true ∧ t.scDraws = s.scDraws := by
  cases i with
  | lrW => cases hlr; exact reserved_of_loadReserve (four_dvd_resGrain hwf) hexec ht
  | lrD =>
    cases hlr
    have hx := rv64_of_running hexec ht
    exact reserved_of_loadReserve (eight_dvd_resGrain hwf hx) ((when64_of_rv64 _ hx).symm.trans hexec) ht
  | _ => cases hlr

theorem outcome_of_storeConditional {rd rs1 rs2 : XReg} (hn : n ≤ 8)
    (hstore : storeConditional n rd rs1 rs2 s = .next t) (ht : t.run = .running) :
    (scSucceeds s (readX s.bits s rs1).toNat n = true →
        ScWrites rd (readX s.bits s rs1) n (readX (8 * n) s rs2) s t) ∧
      t.scDraws = (endReservation (readX s.bits s rs1).toNat n s).scDraws := by
  obtain ⟨u, hu, houtcome, hdraws⟩ := storeConditional_of_accessOk n rd rs1 rs2 s hn (accessOk_of_running hstore ht)
  rw [hstore] at hu
  cases hu
  exact ⟨fun hsucceeds => by rwa [if_pos hsucceeds] at houtcome, hdraws⟩

/-- An SC that took no trap does as `scSucceeds` has it, and has consulted the oracle if its reservation holds and the
parameter lets it (R262). -/
theorem outcome_of_scAccess (hsc : scAccess s i = some (m, n)) (hexec : exec i s = .next t) (ht : t.run = .running) :
    (scSucceeds s m n = true → ScSucceedsHere i s) ∧ t.scDraws = (endReservation m n s).scDraws := by
  cases i with
  | scW =>
    cases hsc
    obtain ⟨hwrites, hdraws⟩ := outcome_of_storeConditional (by decide) hexec ht
    exact ⟨fun hsucceeds => ⟨t, hexec, hwrites hsucceeds⟩, hdraws⟩
  | scD =>
    cases hsc
    have hx := rv64_of_running hexec ht
    obtain ⟨hwrites, hdraws⟩ :=
      outcome_of_storeConditional (by decide) ((when64_of_rv64 _ hx).symm.trans hexec) ht
    exact ⟨fun hsucceeds => ⟨t, hexec, hwrites hsucceeds⟩, hdraws⟩
  | _ => cases hsc

/-! ### Classes of instructions -/

theorem lrAccess_of_not_touches (hi : touchesReservation i = false) : lrAccess s i = none := by
  cases i with
  | lrW | lrD => cases hi
  | _ => rfl

theorem touchesReservation_of_allowed (hi : allowedBetween i = true) : touchesReservation i = false := by
  cases i with
  | lrW | scW | lrD | scD => cases hi
  | _ => rfl

theorem touchesReservation_of_branch (hi : isBranch i = true) : touchesReservation i = false := by
  cases i with
  | lrW | scW | lrD | scD => cases hi
  | _ => rfl

theorem lrAccess_of_scAccess {a : Nat × Nat} (hi : scAccess s i = some a) : lrAccess s i = none := by
  cases i with
  | lrW | lrD => cases hi
  | _ => rfl

theorem isTransfer_of_lrAccess {a : Nat × Nat} (hi : lrAccess s i = some a) : isTransfer i = false := by
  cases i with
  | lrW | lrD => rfl
  | _ => cases hi

theorem isTransfer_of_scAccess {a : Nat × Nat} (hi : scAccess s i = some a) : isTransfer i = false := by
  cases i with
  | scW | scD => rfl
  | _ => cases hi

end

/-! ### The states of a try -/

/-- Between LR and SC of a try whose row consultation `first` of the oracle opened, after `draws` consultations: the
bytes are reserved and the record names the try. -/
structure InTry (start : Word) (addr n first draws : Nat) (s : State) : Prop where
  record : s.retryLoop = some ⟨lrPc start s, first, .between addr n⟩
  held : reserved s addr n = true
  count : s.scDraws = draws

/-- After the SC of such a try failed, until the next LR. -/
structure Retrying (start : Word) (first draws : Nat) (s : State) : Prop where
  record : s.retryLoop = some ⟨lrPc start s, first, .retrying⟩
  count : s.scDraws = draws

section
variable {start : Word} {len addr n : Nat} {s t : State}

namespace LoopStep

/-- What a step of the loop executes is the instruction the loop has at `pc`. -/
theorem executes (h : LoopStep start len addr n s t) (ht : t.run = .running) {k : Nat} {i : Instr}
    (hat : AtInstr start k s) (hi : instrAt s (sequenceAddr s start k) = some i) :
    ∃ u, exec i s = .next u ∧ u.run = .running ∧ t = setLoop (nextLoop i s u) u := by
  obtain ⟨j, u, hj, hexec, hu, rfl⟩ := exec_of_step_running h.steps ht
  rw [hat, hi] at hj
  cases hj
  exact ⟨u, hexec, hu, rfl⟩

theorem params_eq (h : LoopStep start len addr n s t) (ht : t.run = .running) : t.params = s.params := by
  obtain ⟨i, u, -, hexec, -, rfl⟩ := exec_of_step_running h.steps ht
  obtain ⟨-, -, -, hparams⟩ := Proofs.onlyDestinationsChange i s u hexec
  exact hparams

theorem pc_fits (h : LoopStep start len addr n s t) (ht : t.run = .running) : t.pc.toNat < 2 ^ t.bits := by
  obtain ⟨i, u, -, hexec, hu, rfl⟩ := exec_of_step_running h.steps ht
  exact (exec_successor hexec).pc_fits hu

/-- The LR begins a try, in the row that the record gives it. -/
theorem of_lr (h : LoopStep start len addr n s t) (ht : t.run = .running) (hat : AtInstr start 0 s) :
    AtInstr start 1 t ∧ (s.params.wf = true → s.pc.toNat < 2 ^ s.bits →
      InTry start addr n (loopAtLr s addr n).first s.scDraws t) := by
  obtain ⟨i, m, hi, hlr, hm⟩ := h.atLr
  obtain rfl := hm hat
  have hparams := h.params_eq ht
  obtain ⟨u, hexec, hu, rfl⟩ := h.executes ht hat hi
  obtain ⟨-, hpc⟩ := (exec_successor hexec).pc_of_running (running_of_step h.steps)
  refine ⟨hat.succ hparams (hpc hu (isTransfer_of_lrAccess hlr)), fun hwf hfits => ?_⟩
  obtain ⟨hheld, hdraws⟩ := reserved_of_lrAccess hlr hwf hexec hu
  refine ⟨?_, hheld, hdraws⟩
  rw [lrPc_congr start hparams, ← pc_eq_lrPc hat hfits]
  exact nextLoop_of_lr u hlr

/-- An instruction between LR and SC goes forward and keeps the try. -/
theorem of_between (h : LoopStep start len addr n s t) (ht : t.run = .running) (hlen : len ≤ 14) {k : Nat}
    (hat : AtInstr start k s) (hk : 1 ≤ k) (hk' : k ≤ len) :
    ∃ k', k < k' ∧ k' ≤ len + 1 ∧ AtInstr start k' t ∧
      ∀ first draws, InTry start addr n first draws s → InTry start addr n first draws t := by
  obtain ⟨i, hi, hallowed⟩ := h.between k hk hk'
  obtain ⟨k', hlt, hle, hat'⟩ := h.forward k hk hk' hat
  have hparams := h.params_eq ht
  obtain ⟨u, hexec, hu, rfl⟩ := h.executes ht hat hi
  refine ⟨k', hlt, hle, hat', fun first draws htry => ?_⟩
  have htouches := touchesReservation_of_allowed hallowed
  obtain ⟨-, hkeeps⟩ := Proofs.onlyLrScTouchReservation i s u hexec
  obtain ⟨hreservation, hdraws⟩ := hkeeps htouches
  have hforward : loopOffset (lrPc start s) s < loopOffset (lrPc start s) u := by
    have hoffset : loopOffset (lrPc start u) u = 4 * k' := hat'.loopOffset_lrPc (by omega)
    rw [hat.loopOffset_lrPc (by omega), ← lrPc_congr start (t := u) hparams, hoffset]
    omega
  refine ⟨?_, (reserved_congr hreservation addr n).trans htry.held, hdraws.trans htry.count⟩
  rw [lrPc_congr start hparams, setLoop_retryLoop, nextLoop_of_not_lr u (lrAccess_of_not_touches htouches),
    htry.record]
  exact loopAfter_of_allowed hallowed hforward

/-- The SC succeeds, or its row has had fewer failures than the free value gives it and this is one more. -/
theorem of_sc (h : LoopStep start len addr n s t) (ht : t.run = .running) (hlen : len ≤ 14)
    (hat : AtInstr start (len + 1) s) :
    AtInstr start (len + 2) t ∧ ∀ first draws, InTry start addr n first draws s →
      (∃ i, instrAt s (readPc s.bits s) = some i ∧ ScSucceedsHere i s) ∨
        (draws < first + Config.scFailures first ∧ Retrying start first (draws + 1) t) := by
  obtain ⟨i, m, hi, hsc, hm⟩ := h.atSc
  obtain rfl := hm hat
  have hparams := h.params_eq ht
  obtain ⟨u, hexec, hu, rfl⟩ := h.executes ht hat hi
  obtain ⟨-, hpc⟩ := (exec_successor hexec).pc_of_running (running_of_step h.steps)
  refine ⟨hat.succ hparams (hpc hu (isTransfer_of_scAccess hsc)), fun first draws htry => ?_⟩
  obtain ⟨hsucceeds, hdraws⟩ := outcome_of_scAccess hsc hexec hu
  cases hfails : scSucceeds s m n with
  | true => exact .inl ⟨i, (congrArg (instrAt s) hat).trans hi, hsucceeds hfails⟩
  | false =>
    have hnot := (scSucceeds_iff s m n).not.1 (by rw [hfails]; decide)
    rw [firstDraw_of_loop htry.record, htry.count, not_and, not_or, Bool.not_eq_false, not_le] at hnot
    obtain ⟨hmay, hlt⟩ := hnot htry.held
    refine .inr ⟨hlt, ?_, ?_⟩
    · rw [lrPc_congr start hparams, setLoop_retryLoop, nextLoop_of_not_lr u (lrAccess_of_scAccess hsc), htry.record]
      exact loopAfter_of_failed_sc u hsc hfails (hat.sequenceAllowed hlen h.between)
    · rw [setLoop_scDraws, hdraws, endReservation_scDraws, htry.held, hmay, htry.count]
      rfl

/-- The branch goes back to the LR and keeps the row. -/
theorem of_branch (h : LoopStep start len addr n s t) (ht : t.run = .running) (hat : AtInstr start (len + 2) s) :
    AtInstr start 0 t ∧ ∀ first draws, Retrying start first draws s → Retrying start first draws t := by
  obtain ⟨i, hi, hbranch⟩ := h.atBranch
  have hback := h.retries hat
  have hparams := h.params_eq ht
  have hpc := pc_eq_lrPc hback (h.pc_fits ht)
  obtain ⟨u, hexec, hu, rfl⟩ := h.executes ht hat hi
  refine ⟨hback, fun first draws hretrying => ?_⟩
  have htouches := touchesReservation_of_branch hbranch
  obtain ⟨-, hkeeps⟩ := Proofs.onlyLrScTouchReservation i s u hexec
  obtain ⟨-, hdraws⟩ := hkeeps htouches
  refine ⟨?_, hdraws.trans hretrying.count⟩
  rw [lrPc_congr start hparams] at hpc ⊢
  rw [setLoop_retryLoop, nextLoop_of_not_lr u (lrAccess_of_not_touches htouches), hretrying.record]
  exact loopAfter_of_branch_back s hbranch hpc

end LoopStep

end

end Sys2Proof.Machine
end

section
/-! A run that stays in a constrained LR/SC loop: it comes back to the LR again and again, and the SC that ends the last
failure of its row succeeds (`43_a_atomics.md` R263). -/

namespace Sys2Proof.Machine

section
variable {start : Word} {len addr n : Nat} {run : Nat → State}

/-- Some SC of the run succeeds. -/
def SomeScSucceeds (run : Nat → State) : Prop :=
  ∃ (j : Nat) (i : Instr), instrAt (run j) (readPc (run j).bits (run j)) = some i ∧ ScSucceedsHere i (run j)

variable (hlen : len ≤ 14) (hloop : ∀ j, LoopStep start len addr n (run j) (run (j + 1)))
include hloop

theorem run_running (j : Nat) : (run j).run = .running := running_of_step (hloop j).steps

theorem run_params_wf (hwf : (run 0).params.wf = true) (j : Nat) : (run j).params.wf = true := by
  induction j with
  | zero => exact hwf
  | succ j ih => rwa [(hloop j).params_eq (run_running hloop (j + 1))]

include hlen

/-- After the LR the run reaches the SC, in the same try. -/
theorem run_reaches_sc {j k : Nat} (hat : AtInstr start k (run j)) (hk : 1 ≤ k) (hk' : k ≤ len + 1) :
    ∃ j', AtInstr start (len + 1) (run j') ∧
      ∀ first draws, InTry start addr n first draws (run j) → InTry start addr n first draws (run j') := by
  induction hm : len + 1 - k using Nat.strong_induction_on generalizing j k with
  | _ m ih =>
    rcases Nat.lt_or_ge len k with hend | hbetween
    · obtain rfl : k = len + 1 := by omega
      exact ⟨j, hat, fun _ _ => id⟩
    · obtain ⟨k', hlt, hle, hat', htry⟩ := (hloop j).of_between (run_running hloop (j + 1)) hlen hat hk hbetween
      obtain ⟨j', hat'', htry'⟩ := ih (len + 1 - k') (by omega) hat' (by omega) hle rfl
      exact ⟨j', hat'', fun first draws => htry' first draws ∘ htry first draws⟩

/-- From anywhere in the loop the run comes to the LR by a step. -/
theorem run_reaches_lr : ∃ j, AtInstr start 0 (run (j + 1)) := by
  have hrun := run_running hloop
  have of_branch {j} (hat : AtInstr start (len + 2) (run j)) : ∃ j, AtInstr start 0 (run (j + 1)) :=
    ⟨j, (hloop j).retries hat⟩
  have of_try {j k} (hat : AtInstr start k (run j)) (hk : 1 ≤ k) (hk' : k ≤ len + 1) :
      ∃ j, AtInstr start 0 (run (j + 1)) := by
    obtain ⟨j', hsc, -⟩ := run_reaches_sc hlen hloop hat hk hk'
    obtain ⟨hbranch, -⟩ := (hloop j').of_sc (hrun (j' + 1)) hlen hsc
    exact of_branch hbranch
  obtain ⟨k, hk, hat⟩ := (hloop 0).inside
  rcases Nat.eq_zero_or_pos k with rfl | hpos
  · obtain ⟨hat', -⟩ := (hloop 0).of_lr (hrun 1) hat
    exact of_try hat' le_rfl (by omega)
  · rcases Nat.lt_or_ge (len + 1) k with hlast | hle
    · obtain rfl : k = len + 2 := by omega
      exact of_branch hat
    · exact of_try hat hpos hle

/-- A row of tries succeeds: each failure is one of the finitely many that the free value gives the row. -/
theorem run_succeeds_of_inTry (hwf : (run 0).params.wf = true) {first draws j k : Nat} (hat : AtInstr start k (run j))
    (hk : 1 ≤ k) (hk' : k ≤ len + 1) (htry : InTry start addr n first draws (run j)) : SomeScSucceeds run := by
  have hrun := run_running hloop
  induction hm : first + Config.scFailures first - draws using Nat.strong_induction_on generalizing draws j k with
  | _ m ih =>
    obtain ⟨a, hsc, htrySc⟩ := run_reaches_sc hlen hloop hat hk hk'
    obtain ⟨hbranch, houtcome⟩ := (hloop a).of_sc (hrun (a + 1)) hlen hsc
    rcases houtcome _ _ (htrySc _ _ htry) with ⟨i, hi, hsucceeds⟩ | ⟨hlt, hretrying⟩
    · exact ⟨a, i, hi, hsucceeds⟩
    · obtain ⟨hback, hkeeps⟩ := (hloop (a + 1)).of_branch (hrun (a + 2)) hbranch
      have hretrying' := hkeeps _ _ hretrying
      have hfits := (hloop (a + 1)).pc_fits (hrun (a + 2))
      obtain ⟨hnext, hbegins⟩ := (hloop (a + 2)).of_lr (hrun (a + 3)) hback
      have htry' := hbegins (run_params_wf hloop hwf (a + 2)) hfits
      rw [loopAtLr_first_of_retrying addr n (pc_eq_lrPc hback hfits ▸ hretrying'.record), hretrying'.count] at htry'
      exact ih _ (by omega) hnext le_rfl (by omega) htry' rfl

end

end Sys2Proof.Machine

namespace Sys2Proof.Proofs

open Sys2Proof.Machine

/-- Settles O8: the run comes to the LR, which opens or goes on with a row of tries, and that row succeeds. -/
theorem constrainedLoopProgress : Obligations.ConstrainedLoopProgress := by
  intro start len addr n run hlen hwf hloop
  have hrun := run_running hloop
  obtain ⟨j, hat⟩ := run_reaches_lr hlen hloop
  obtain ⟨hnext, hbegins⟩ := (hloop (j + 1)).of_lr (hrun (j + 2)) hat
  have htry := hbegins (run_params_wf hloop hwf (j + 1)) ((hloop j).pc_fits (hrun (j + 1)))
  exact run_succeeds_of_inTry hlen hloop hwf hnext le_rfl (by omega) htry

end Sys2Proof.Proofs
end

section
/-! The effective rounding mode, and what the floating-point instructions answer under it (`44_f_single.md` R301). -/

namespace Sys2Proof.Machine

section
variable {i : Instr} {s : State} {rm frm : BitVec 3} {mode : RoundingMode}

/-! ### The rounding mode -/

theorem roundingMode_of_code {v : BitVec 3} (h : v.toNat = modeCode mode) : roundingMode v = some mode := by
  unfold roundingMode
  rw [h]
  cases mode <;> rfl

theorem roundingMode_of_reserved {v : BitVec 3} (h : 5 ≤ v.toNat) : roundingMode v = none := by
  have hcases : v.toNat = 5 ∨ v.toNat = 6 ∨ v.toNat = 7 := by omega
  unfold roundingMode
  rcases hcases with hv | hv | hv <;> rw [hv] <;> rfl

theorem resolveRm_of_dynamic (h : rm.toNat = 7) : resolveRm rm frm = roundingMode frm :=
  if_pos (BitVec.eq_of_toNat_eq h)

theorem resolveRm_of_static (h : rm.toNat ≠ 7) : resolveRm rm frm = roundingMode rm :=
  if_neg fun hrm => h (congrArg BitVec.toNat hrm)

theorem modeCode_le_four (mode : RoundingMode) : modeCode mode ≤ 4 := by cases mode <;> decide

theorem resolveRm_of_effective (h : EffectiveMode rm frm mode) : resolveRm rm frm = some mode := by
  rcases h with hstatic | ⟨hdynamic, hfrm⟩
  · rw [resolveRm_of_static (by have := modeCode_le_four mode; omega), roundingMode_of_code hstatic]
  · rw [resolveRm_of_dynamic hdynamic, roundingMode_of_code hfrm]

theorem resolveRm_of_reserved (h : ReservedMode rm frm) : resolveRm rm frm = none := by
  rcases h with hstatic | hstatic | ⟨hdynamic, hfrm⟩
  · rw [resolveRm_of_static (by omega), roundingMode_of_reserved (by omega)]
  · rw [resolveRm_of_static (by omega), roundingMode_of_reserved (by omega)]
  · rw [resolveRm_of_dynamic hdynamic, roundingMode_of_reserved hfrm]

/-- Every instruction with an `rm` field resolves it before anything else, but for the 64-bit rows, which are illegal
with `XLEN = 32` whatever the field holds. -/
theorem exec_of_rmOf (s : State) (h : rmOf i = some rm) :
    (∃ k, exec i s = withMode i rm s k) ∨ ∃ k, exec i s = when64 i s (withMode i rm s k) := by
  cases i with
  | fmaddS | fmsubS | fnmsubS | fnmaddS | faddS | fsubS | fmulS | fdivS | fsqrtS | fcvtWS | fcvtWuS | fcvtSW | fcvtSWu
  | fmaddD | fmsubD | fnmsubD | fnmaddD | faddD | fsubD | fmulD | fdivD | fsqrtD | fcvtWD | fcvtWuD | fcvtDW
  | fcvtDWu =>
    obtain rfl := Option.some.inj h
    exact .inl ⟨_, rfl⟩
  | fcvtLS | fcvtLuS | fcvtSL | fcvtSLu | fcvtLD | fcvtLuD | fcvtDL | fcvtDLu =>
    obtain rfl := Option.some.inj h
    exact .inr ⟨_, rfl⟩
  | _ => cases h

/-- Under a reserved mode the instruction is illegal at both values of `XLEN` (R301). -/
theorem exec_of_reservedMode (hrm : rmOf i = some rm) (h : ReservedMode rm s.frm) : exec i s = illegal i s := by
  have hnone := resolveRm_of_reserved h
  rcases exec_of_rmOf s hrm with ⟨k, hexec⟩ | ⟨k, hexec⟩ <;> rw [hexec]
  · exact withMode_of_none k hnone
  · cases hx : s.params.xlen with
    | rv32 => exact when64_of_rv32 _ hx
    | rv64 => rw [when64_of_rv64 _ hx, withMode_of_none k hnone]

/-! ### Completion under a legal mode -/

/-- A meaning that completes with a boxed single-precision result (R303). -/
theorem answers_of_retireS {rd : FReg} {r : BitVec 32 × Flags} (hexec : exec i s = retireS rd r s) :
    Answers i s (ResultFFlags rd (BitVec.allOnes 32 ++ r.1) r.2) :=
  answers_of_exec_eq hexec (retireS_resultFFlags rd r s)

/-- A meaning that completes with a double-precision result. -/
theorem answers_of_retireD {rd : FReg} {r : BitVec 64 × Flags} (hexec : exec i s = retireD rd r s) :
    Answers i s (ResultFFlags rd r.1 r.2) :=
  answers_of_exec_eq hexec (retireD_resultFFlags rd r s)

/-- Under its effective mode an instruction is what it runs under that mode. -/
theorem withMode_of_effective (k : RoundingMode → Result) (h : EffectiveMode rm s.frm mode) :
    withMode i rm s k = k mode :=
  withMode_of_some k (resolveRm_of_effective h)

/-- The same of a 64-bit row, where `XLEN` is 64. -/
theorem when64_withMode_of_effective (k : RoundingMode → Result) (hx : s.params.xlen = .rv64)
    (h : EffectiveMode rm s.frm mode) : when64 i s (withMode i rm s k) = k mode := by
  rw [when64_of_rv64 _ hx, withMode_of_effective k h]

end

/-! ### Raw bits -/

/-- The low bits as a remainder. -/
theorem extractLsb'_zero_eq_ofNat {w : Nat} (v : BitVec w) (k : Nat) :
    v.extractLsb' 0 k = BitVec.ofNat k (v.toNat % 2 ^ k) := by
  apply BitVec.eq_of_toNat_eq
  rw [BitVec.extractLsb'_toNat, BitVec.toNat_ofNat, Nat.shiftRight_zero, Nat.mod_mod]

/-- The upper half of a register is all ones (R302). -/
theorem upperHalf_eq_allOnes_iff (v : Word) :
    v.extractLsb' 32 32 = BitVec.allOnes 32 ↔ v.toNat / 2 ^ 32 = 2 ^ 32 - 1 := by
  rw [← BitVec.toNat_inj, BitVec.extractLsb'_toNat, BitVec.toNat_allOnes, Nat.shiftRight_eq_div_pow,
    Nat.mod_eq_of_lt (by omega)]

theorem unbox_of_boxed {v : Word} (h : v.toNat / 2 ^ 32 = 2 ^ 32 - 1) :
    unbox v = BitVec.ofNat 32 (v.toNat % 2 ^ 32) := by
  rw [unbox, if_pos ((upperHalf_eq_allOnes_iff v).2 h), extractLsb'_zero_eq_ofNat]

theorem unbox_of_not_boxed {v : Word} (h : v.toNat / 2 ^ 32 ≠ 2 ^ 32 - 1) : unbox v = canonicalNaN32 :=
  if_neg (mt (upperHalf_eq_allOnes_iff v).1 h)

theorem toNat_box (v : BitVec 32) : (box v).toNat = (2 ^ 32 - 1) * 2 ^ 32 + v.toNat := by
  rw [box, BitVec.toNat_append, ← Nat.shiftLeft_add_eq_or_of_lt v.isLt, Nat.shiftLeft_eq, BitVec.toNat_allOnes]

/-- A boxed value reads back as it was (R302, R303). -/
theorem unbox_box (v : BitVec 32) : unbox (box v) = v := by
  have hv := v.isLt
  rw [unbox_of_boxed (by rw [toNat_box]; omega), toNat_box, Nat.mul_add_mod', Nat.mod_eq_of_lt hv,
    BitVec.ofNat_toNat, BitVec.setWidth_eq]

/-- A sign before the `k` low bits of `v` is the bit above them. -/
theorem getLsbD_signInject_sign {w k : Nat} (sign : Bool) (v : BitVec w) :
    (BitVec.ofBool sign ++ v.extractLsb' 0 k).getLsbD k = sign := by
  rw [BitVec.getLsbD_append, if_neg (lt_irrefl k), Nat.sub_self, BitVec.getLsbD_ofBool, decide_eq_true rfl,
    Bool.true_and]

/-- The other bits are those of `v`. -/
theorem getLsbD_signInject_of_lt {w k j : Nat} (sign : Bool) (v : BitVec w) (hj : j < k) :
    (BitVec.ofBool sign ++ v.extractLsb' 0 k).getLsbD j = v.getLsbD j := by
  rw [BitVec.getLsbD_append, if_pos hj, BitVec.getLsbD_extractLsb', decide_eq_true hj, Bool.true_and, Nat.zero_add]

/-! ### The register of flags and mode -/

section
variable (s : State)

theorem toNat_frm : s.frm.toNat = s.fcsr.toNat / 32 := by
  have hlt := s.fcsr.isLt
  rw [State.frm, BitVec.extractLsb'_toNat, Nat.shiftRight_eq_div_pow]
  omega

theorem toNat_fflags : s.fflags.toNat = s.fcsr.toNat % 32 := BitVec.extractLsb'_toNat 0 5 s.fcsr

theorem toNat_fcsrOf (frm : BitVec 3) (fl : BitVec 5) : (fcsrOf frm fl).toNat = frm.toNat * 32 + fl.toNat := by
  rw [fcsrOf, BitVec.toNat_append, ← Nat.shiftLeft_add_eq_or_of_lt fl.isLt, Nat.shiftLeft_eq]

/-- A completion that writes `fcsr`, both values given as numbers (`44_f_single.md` R336 to R343). -/
theorem answers_of_retireX_setFcsr {i : Instr} {w old new : Nat} {rd : XReg} {v : BitVec w} {c : BitVec 8}
    (hexec : exec i s = retireX rd (v.setWidth s.bits) (setFcsr c s)) (hold : v.toNat = old) (hnew : c.toNat = new) :
    Answers i s (SwapsFcsr rd (BitVec.ofNat s.bits old) (BitVec.ofNat 8 new)) := by
  subst hold hnew
  rw [BitVec.ofNat_toNat, BitVec.ofNat_toNat, BitVec.setWidth_eq]
  refine ⟨_, hexec, fun r => ?_, rfl, fun _ => rfl, fun _ => rfl, ⟨rfl, rfl, rfl, rfl⟩, ⟨rfl, rfl⟩, rfl⟩
  change readX 64 (writeX rd _ (setFcsr c s)) r = _
  rw [readX_writeX, BitVec.setWidth_eq, readX_congr (setFcsr_xs c s)]

end

end Sys2Proof.Machine
end

section
/-! The statements about floating-point moves, modes and flags (`44_f_single.md`, `45_d_double.md`). -/

namespace Sys2Proof.Proofs

open Sys2Proof.Machine

/-- Settles O45: each is `load` or `store` of its width at the effective address. -/
theorem floatLoadsStores : Obligations.FloatLoadsStores := by
  intro s rd rs2 rs1 imm a
  refine ⟨fun hok => ?flw, fun hok => ?fld, fun hok => ?fsw, fun hok => ?fsd⟩
  case flw =>
    have hexec : exec (.flw rd rs1 imm) s = retireF rd (box (s.mem.readLE a 4)) s :=
      load_of_accessOk (n := 4) (fun v => retireF rd (box v) s) hok
    exact answers_of_exec_eq hexec (readLE_four s a ▸ retireF_resultF rd _ s)
  case fld =>
    have hexec : exec (.fld rd rs1 imm) s = retireF rd (s.mem.readLE a 8) s :=
      load_of_accessOk (n := 8) (fun v => retireF rd v s) hok
    exact answers_of_exec_eq hexec (readLE_eight s a ▸ retireF_resultF rd _ s)
  case fsw =>
    rw [← extractLsb'_zero_eq_ofNat]
    exact answers_of_exec_eq rfl
      (store_storesOnly s a 4 _ (le_two_pow_bits s (by decide)) (accessTrap_of_accessOk hok))
  case fsd =>
    exact answers_of_exec_eq rfl
      (store_storesOnly s a 8 _ (le_two_pow_bits s (by decide)) (accessTrap_of_accessOk hok))

/-- Settles O46: every instruction with an `rm` field resolves it first. -/
theorem reservedRoundingModes : Obligations.ReservedRoundingModes :=
  fun s _ _ hrm hreserved => answers_of_exec_eq (exec_of_reservedMode hrm hreserved) (raise_traps s _ _)

/-- Settles O47: a register is boxed when its upper half is all ones. -/
theorem nanBoxing : Obligations.NaNBoxing := by
  refine ⟨fun s r => ⟨unbox_of_boxed, unbox_of_not_boxed⟩, fun s r v => ⟨toNat_box v, ?_⟩⟩
  rw [readS, readF_writeF, if_pos rfl, unbox_box]

/-- Settles O48: each runs its operation under the effective mode, and completes with its result and flags. -/
theorem singleArithmetic : Obligations.SingleArithmetic := by
  intro s rm mode rd rs1 rs2 rs3 hmode a b c
  refine ⟨?fadd, ?fsub, ?fmul, ?fdiv, ?fsqrt, ?fmadd, ?fmsub, ?fnmsub, ?fnmadd⟩
  all_goals exact answers_of_retireS (withMode_of_effective _ hmode)

/-- Settles O50: the result is a sign before the other bits of the first operand. -/
theorem signInjection : Obligations.SignInjection := by
  refine ⟨fun s rd rs1 rs2 => ⟨?fsgnjS, ?fsgnjnS, ?fsgnjxS⟩, fun s rd rs1 rs2 => ⟨?fsgnjD, ?fsgnjnD, ?fsgnjxD⟩⟩
  all_goals exact ⟨_, fun _ => getLsbD_signInject_of_lt _ _, getLsbD_signInject_sign _ _,
    answers_of_exec_eq rfl (retireF_resultF rd _ s)⟩

/-- Settles O55: each completes with raw bits, the 64-bit rows where `XLEN` is 64. -/
theorem floatMoves : Obligations.FloatMoves := by
  intro s r f
  refine ⟨?fmvXS, answers_of_exec_eq rfl (retireF_resultF f _ s), fun hx => ⟨?fmvXD, ?fmvDX⟩⟩
  case fmvXS =>
    refine answers_of_retireX rfl ?_
    have hlow : readFLow s f = BitVec.ofNat 32 (readF s f).toNat := by
      rw [BitVec.ofNat_toNat]
      exact BitVec.setWidth_eq_extractLsb' (by decide) |>.symm
    rw [hlow, BitVec.signExtend]
  case fmvXD => exact answers_of_retireX (when64_of_rv64 _ hx) rfl
  case fmvDX => exact answers_of_exec_eq (when64_of_rv64 _ hx) (retireF_resultF f _ s)

/-- Settles O56: each is a completion that writes `fcsr`, the field it does not name with its own value. -/
theorem fcsrAccess : Obligations.FcsrAccess := by
  intro s rd rs1 uimm c x
  have hread (k : Nat) (hk : k ≤ 32) : (readX k s rs1).toNat = x % 2 ^ k :=
    toNat_readX_of_le s rs1 (hk.trans (le_bits s))
  refine ⟨?frcsr, ?frrm, ?frflags, ?fscsr, ?fsrm, ?fsflags, ?fsrmi, ?fsflagsi⟩
  case frcsr => exact answers_of_retireX_setFcsr s rfl rfl rfl
  case frrm => exact answers_of_retireX_setFcsr s rfl (toNat_frm s) rfl
  case frflags => exact answers_of_retireX_setFcsr s rfl (toNat_fflags s) rfl
  case fscsr => exact answers_of_retireX_setFcsr s rfl rfl (hread 8 (by decide))
  case fsrm =>
    exact answers_of_retireX_setFcsr s rfl (toNat_frm s) (by rw [toNat_fcsrOf, hread 3 (by decide), toNat_fflags]; rfl)
  case fsflags =>
    exact answers_of_retireX_setFcsr s rfl (toNat_fflags s) (by rw [toNat_fcsrOf, hread 5 (by decide), toNat_frm]; rfl)
  case fsrmi =>
    exact answers_of_retireX_setFcsr s rfl (toNat_frm s) (by rw [toNat_fcsrOf, BitVec.toNat_setWidth, toNat_fflags])
  case fsflagsi => exact answers_of_retireX_setFcsr s rfl (toNat_fflags s) (by rw [toNat_fcsrOf, toNat_frm])

end Sys2Proof.Proofs
end

section
/-! Data by their kind and their value: what unpacked operands are, and the exact values that the operations compute
from them (`44_f_single.md` R300). -/

namespace Sys2Proof.Machine

/-! ### The value of a sign, a significand and an exponent -/

/-- `±sig * 2^exp`, the value of a finite datum. -/
def finValue (neg : Bool) (sig : Nat) (exp : Int) : ℚ := signOf neg * (sig * (2 : ℚ) ^ exp)

section
variable (neg neg' : Bool) (sig sig' : Nat) (exp exp' : Int)

theorem signOf_ne_zero : signOf neg ≠ 0 := by cases neg <;> norm_num [signOf]

theorem signOf_not : signOf (!neg) = -signOf neg := by cases neg <;> norm_num [signOf]

theorem signOf_xor : signOf (neg ^^ neg') = signOf neg * signOf neg' := by
  cases neg <;> cases neg' <;> norm_num [signOf]

theorem finValue_eq_zero_iff : finValue neg sig exp = 0 ↔ sig = 0 := by
  have hpow : (2 : ℚ) ^ exp ≠ 0 := zpow_ne_zero exp two_ne_zero
  simp [finValue, signOf_ne_zero, hpow]

theorem finValue_not : finValue (!neg) sig exp = -finValue neg sig exp := by
  rw [finValue, signOf_not, neg_mul, finValue]

theorem finValue_xor : finValue (neg ^^ neg') sig exp = signOf neg' * finValue neg sig exp := by
  rw [finValue, signOf_xor, finValue]
  ring

theorem finValue_mul :
    finValue neg sig exp * finValue neg' sig' exp' = finValue (neg ^^ neg') (sig * sig') (exp + exp') := by
  simp only [finValue, signOf_xor, zpow_add₀ (two_ne_zero : (2 : ℚ) ≠ 0)]
  push_cast
  ring

theorem signedSig_cast : (signedSig neg sig : ℚ) = signOf neg * sig := by cases neg <;> simp [signedSig, signOf]

/-- A value in units of a lower power of two. -/
theorem scaled_mul_zpow {base : Int} (h : base ≤ exp) :
    (scaled neg sig exp base : ℚ) * (2 : ℚ) ^ base = finValue neg sig exp := by
  have hexp : exp = ((exp - base).toNat : Int) + base := by omega
  rw [scaled, Int.cast_mul, signedSig_cast, finValue]
  conv_rhs => rw [hexp, zpow_add₀ (two_ne_zero : (2 : ℚ) ≠ 0), zpow_natCast]
  push_cast
  ring

theorem scaled_add_mul_zpow :
    ((scaled neg sig exp (min exp exp') + scaled neg' sig' exp' (min exp exp') : Int) : ℚ) * (2 : ℚ) ^ (min exp exp') =
      finValue neg sig exp + finValue neg' sig' exp' := by
  rw [Int.cast_add, add_mul, scaled_mul_zpow _ _ _ (min_le_left _ _), scaled_mul_zpow _ _ _ (min_le_right _ _)]

theorem scaled_lt_scaled_iff : scaled neg sig exp (min exp exp') < scaled neg' sig' exp' (min exp exp') ↔
    finValue neg sig exp < finValue neg' sig' exp' := by
  have hpow : (0 : ℚ) < (2 : ℚ) ^ (min exp exp') := by positivity
  rw [← scaled_mul_zpow neg sig exp (min_le_left exp exp'), ← scaled_mul_zpow neg' sig' exp' (min_le_right exp exp'),
    mul_lt_mul_iff_left₀ hpow, Int.cast_lt]

theorem scaled_eq_scaled_iff : scaled neg sig exp (min exp exp') = scaled neg' sig' exp' (min exp exp') ↔
    finValue neg sig exp = finValue neg' sig' exp' := by
  have hpow : (2 : ℚ) ^ (min exp exp') ≠ 0 := zpow_ne_zero _ two_ne_zero
  rw [← scaled_mul_zpow neg sig exp (min_le_left exp exp'), ← scaled_mul_zpow neg' sig' exp' (min_le_right exp exp'),
    mul_left_inj' hpow, Int.cast_inj]

end

/-! ### What a datum unpacks to -/

/-- The three kinds of data, each with what it unpacks to. -/
inductive Unpacks (F : FloatFormat) (b : BitVec F.width) : Prop where
  | nan (hnan : isNaN F b = true) (hinf : isInfinite F b = false) (hfin : isFinite F b = false)
      (hunpack : unpack F b = .nan (isSignaling F b))
  | inf (hnan : isNaN F b = false) (hinf : isInfinite F b = true) (hfin : isFinite F b = false)
      (hunpack : unpack F b = .inf (signBit F b))
  | fin (sig : Nat) (exp : Int) (hnan : isNaN F b = false) (hinf : isInfinite F b = false) (hfin : isFinite F b = true)
      (hunpack : unpack F b = .fin (signBit F b) sig exp) (hvalue : valueOf F b = finValue (signBit F b) sig exp)

theorem unpacks (F : FloatFormat) (b : BitVec F.width) : Unpacks F b := by
  cases hfin : isFinite F b with
  | true =>
    obtain ⟨sig, exp, hunpack, hvalue⟩ := unpack_of_isFinite hfin
    exact .fin sig exp (by simp [isNaN, hfin]) (by simp [isInfinite, hfin]) hfin hunpack hvalue
  | false =>
    cases hinf : isInfinite F b with
    | true =>
      have hfrac : fracField F b = 0 := by simpa [isInfinite, hfin] using hinf
      exact .inf (by simp [isNaN, hfin, hfrac]) hinf hfin (unpack_of_isInfinite hinf)
    | false =>
      have hfrac : fracField F b ≠ 0 := by simpa [isInfinite, hfin] using hinf
      have hnan : isNaN F b = true := by simp [isNaN, hfin, hfrac]
      exact .nan hnan hinf hfin (unpack_of_isNaN hnan)

section
variable {F : FloatFormat} {b : BitVec F.width}

/-- What a finite datum unpacks to, its value, and when it is a zero. -/
theorem exists_unpack_eq_fin (h : isFinite F b = true) :
    ∃ sig exp, unpack F b = .fin (signBit F b) sig exp ∧ valueOf F b = finValue (signBit F b) sig exp ∧
      (sig = 0 ↔ valueOf F b = 0) := by
  obtain ⟨sig, exp, hunpack, hvalue⟩ := unpack_of_isFinite h
  exact ⟨sig, exp, hunpack, hvalue, by rw [hvalue, ← finValue, finValue_eq_zero_iff]⟩

theorem isFinite_of_isInfinite (h : isInfinite F b = true) : isFinite F b = false := by
  simp only [isInfinite, Bool.and_eq_true, Bool.not_eq_true'] at h
  exact h.1

theorem isNaN_of_isInfinite (h : isInfinite F b = true) : isNaN F b = false := by
  simp only [isInfinite, Bool.and_eq_true, beq_iff_eq] at h
  simp [isNaN, h.2]

theorem isNaN_of_isFinite (h : isFinite F b = true) : isNaN F b = false := by simp [isNaN, h]

theorem isSignaling_of_not_isNaN (h : isNaN F b = false) : isSignaling F b = false := by simp [isSignaling, h]

theorem isNaN_unpack (b : BitVec F.width) : (unpack F b).isNaN = isNaN F b := by
  cases unpacks F b with
  | nan hnan _ _ hunpack | inf hnan _ _ hunpack | fin _ _ hnan _ _ hunpack => rw [hunpack, hnan]; rfl

theorem isSignaling_unpack (b : BitVec F.width) : (unpack F b).isSignaling = isSignaling F b := by
  cases unpacks F b with
  | nan _ _ _ hunpack => rw [hunpack]; rfl
  | inf hnan _ _ hunpack | fin _ _ hnan _ _ hunpack => rw [hunpack, isSignaling_of_not_isNaN hnan]; rfl

end

/-! ### Signs of unpacked data -/

section
variable (p neg : Bool) (sig : Nat) (exp : Int) (d : Datum)

theorem negateIf_inf : (Datum.inf neg).negateIf p = .inf (neg ^^ p) := by
  cases p <;> simp [Datum.negateIf, Datum.negate]

theorem negateIf_fin : (Datum.fin neg sig exp).negateIf p = .fin (neg ^^ p) sig exp := by
  cases p <;> simp [Datum.negateIf, Datum.negate]

theorem isNaN_negate : d.negate.isNaN = d.isNaN := by cases d <;> rfl

theorem isSignaling_negate : d.negate.isSignaling = d.isSignaling := by cases d <;> rfl

theorem isNaN_negateIf : (d.negateIf p).isNaN = d.isNaN := by cases p <;> simp [Datum.negateIf, isNaN_negate]

theorem isSignaling_negateIf : (d.negateIf p).isSignaling = d.isSignaling := by
  cases p <;> simp [Datum.negateIf, isSignaling_negate]

end

/-! ### NaN operands (`44_f_single.md` R305) -/

section
variable {F : FloatFormat} (mode : RoundingMode) {x y d : Datum}

theorem addDatum_of_nan (h : x.isNaN = true ∨ y.isNaN = true) :
    addDatum F mode x y = nanResult F (x.isSignaling || y.isSignaling) := by
  cases x with
  | nan => rfl
  | inf | fin =>
    cases y with
    | nan => rfl
    | inf | fin => simp [Datum.isNaN] at h

theorem divDatum_of_nan (h : x.isNaN = true ∨ y.isNaN = true) :
    divDatum F mode x y = nanResult F (x.isSignaling || y.isSignaling) := by
  cases x with
  | nan => rfl
  | inf | fin =>
    cases y with
    | nan => rfl
    | inf | fin => simp [Datum.isNaN] at h

theorem mulExact_of_nan (h : x.isNaN = true ∨ y.isNaN = true) :
    mulExact x y = some (.nan (x.isSignaling || y.isSignaling)) := by
  cases x with
  | nan => rfl
  | inf | fin =>
    cases y with
    | nan => rfl
    | inf | fin => simp [Datum.isNaN] at h

/-- An exact product is a NaN, signaling or not, as its operands are. -/
theorem nan_of_mulExact (h : mulExact x y = some d) :
    d.isNaN = (x.isNaN || y.isNaN) ∧ d.isSignaling = (x.isSignaling || y.isSignaling) := by
  cases x with
  | nan => cases h; exact ⟨rfl, rfl⟩
  | inf =>
    cases y with
    | nan | inf => cases h; exact ⟨rfl, rfl⟩
    | fin => rw [mulExact] at h; split at h <;> cases h; exact ⟨rfl, rfl⟩
  | fin =>
    cases y with
    | nan | fin => cases h; exact ⟨rfl, rfl⟩
    | inf => rw [mulExact] at h; split at h <;> cases h; exact ⟨rfl, rfl⟩

end

/-- A zero. -/
def IsZero (F : FloatFormat) (v : BitVec F.width) : Prop := isFinite F v = true ∧ valueOf F v = 0

/-- One operand is a zero and the other an infinity. -/
def ZeroTimesInf (F : FloatFormat) (a b : BitVec F.width) : Prop :=
  (IsZero F a ∧ isInfinite F b = true) ∨ (isInfinite F a = true ∧ IsZero F b)

theorem not_isZero_of_isInfinite {F : FloatFormat} {v : BitVec F.width} (h : isInfinite F v = true) : ¬ IsZero F v :=
  fun hzero => Bool.false_ne_true ((isFinite_of_isInfinite h).symm.trans hzero.1)

section
variable {F : FloatFormat} {mode : RoundingMode} {p q : Bool} {a b c : BitVec F.width}

/-- A product is invalid for a zero and an infinity only. -/
theorem mulExact_eq_none_iff : mulExact (unpack F a) (unpack F b) = none ↔ ZeroTimesInf F a b := by
  cases unpacks F a with
  | nan _ hinf hfin hunpack => simp [ZeroTimesInf, IsZero, hinf, hfin, hunpack, mulExact]
  | inf _ hinf hfin hunpack =>
    cases unpacks F b with
    | nan _ hinf' hfin' hunpack' | inf _ hinf' hfin' hunpack' =>
      simp [ZeroTimesInf, IsZero, hfin, hfin', hunpack, hunpack', mulExact]
    | fin _ _ _ hinf' hfin' hunpack' hvalue' =>
      simp [ZeroTimesInf, IsZero, hinf, hfin, hfin', hunpack, hunpack', mulExact, hvalue', finValue_eq_zero_iff]
  | fin _ _ _ hinf hfin hunpack hvalue =>
    cases unpacks F b with
    | nan _ hinf' _ hunpack' | fin _ _ _ hinf' _ hunpack' =>
      simp [ZeroTimesInf, hinf, hinf', hunpack, hunpack', mulExact]
    | inf _ hinf' hfin' hunpack' =>
      simp [ZeroTimesInf, IsZero, hinf, hinf', hfin, hunpack, hunpack', mulExact, hvalue, finValue_eq_zero_iff]

theorem fAdd_of_nan (h : isNaN F a = true ∨ isNaN F b = true) :
    fAdd F mode a b = nanResult F (isSignaling F a || isSignaling F b) := by
  rw [fAdd, addDatum_of_nan mode (by simpa only [isNaN_unpack] using h), isSignaling_unpack, isSignaling_unpack]

theorem fSub_of_nan (h : isNaN F a = true ∨ isNaN F b = true) :
    fSub F mode a b = nanResult F (isSignaling F a || isSignaling F b) := by
  rw [fSub, addDatum_of_nan mode (by simpa only [isNaN_negate, isNaN_unpack] using h), isSignaling_negate,
    isSignaling_unpack, isSignaling_unpack]

theorem fDiv_of_nan (h : isNaN F a = true ∨ isNaN F b = true) :
    fDiv F mode a b = nanResult F (isSignaling F a || isSignaling F b) := by
  rw [fDiv, divDatum_of_nan mode (by simpa only [isNaN_unpack] using h), isSignaling_unpack, isSignaling_unpack]

theorem fSqrt_of_nan (h : isNaN F a = true) : fSqrt F mode a = nanResult F (isSignaling F a) := by
  rw [fSqrt, unpack_of_isNaN h]
  rfl

theorem fMul_of_nan (h : isNaN F a = true ∨ isNaN F b = true) :
    fMul F mode a b = nanResult F (isSignaling F a || isSignaling F b) := by
  rw [fMul, mulExact_of_nan (by simpa only [isNaN_unpack] using h), isSignaling_unpack, isSignaling_unpack]
  rfl

theorem fMul_of_zeroTimesInf (h : ZeroTimesInf F a b) : fMul F mode a b = nanResult F true := by
  rw [fMul, mulExact_eq_none_iff.2 h]

theorem fMulAdd_of_zeroTimesInf (h : ZeroTimesInf F a b) : fMulAdd F mode p q a b c = nanResult F true := by
  rw [fMulAdd, mulExact_eq_none_iff.2 h]

/-- A fused multiply-add is the sum of the exact product and the addend, each with its sign. -/
theorem fMulAdd_of_mulExact {d : Datum} (h : mulExact (unpack F a) (unpack F b) = some d) :
    fMulAdd F mode p q a b c = addDatum F mode (d.negateIf p) ((unpack F c).negateIf q) := by
  rw [fMulAdd, h]

theorem fMulAdd_of_nan (h : isNaN F a = true ∨ isNaN F b = true ∨ isNaN F c = true) (hvalid : ¬ ZeroTimesInf F a b) :
    fMulAdd F mode p q a b c = nanResult F (isSignaling F a || isSignaling F b || isSignaling F c) := by
  cases hproduct : mulExact (unpack F a) (unpack F b) with
  | none => exact absurd (mulExact_eq_none_iff.1 hproduct) hvalid
  | some d =>
    obtain ⟨hnan, hsignaling⟩ := nan_of_mulExact hproduct
    rw [fMulAdd_of_mulExact hproduct, addDatum_of_nan, isSignaling_negateIf, isSignaling_negateIf, hsignaling]
    · simp only [isSignaling_unpack]
    · simpa only [isNaN_negateIf, hnan, isNaN_unpack, Bool.or_eq_true, or_assoc] using h

/-! ### Infinite operands (R304, R305) -/

/-- The product of an infinity and a number that is not zero. -/
theorem mulExact_of_infinite (ha : isInfinite F a = true) (hb : isNaN F b = false) (hzero : ¬ IsZero F b) :
    mulExact (unpack F a) (unpack F b) = some (.inf (signBit F a ^^ signBit F b)) ∧
      mulExact (unpack F b) (unpack F a) = some (.inf (signBit F a ^^ signBit F b)) := by
  have hsigns : Datum.inf (signBit F b ^^ signBit F a) = .inf (signBit F a ^^ signBit F b) :=
    congrArg Datum.inf (Bool.xor_comm _ _)
  rw [unpack_of_isInfinite ha]
  cases unpacks F b with
  | nan hnan => rw [hb] at hnan; cases hnan
  | inf _ _ _ hunpack => rw [hunpack]; exact ⟨rfl, congrArg some hsigns⟩
  | fin sig exp _ _ hfin hunpack hvalue =>
    have hsig : sig ≠ 0 := fun h => hzero ⟨hfin, hvalue.trans ((finValue_eq_zero_iff _ _ _).2 h)⟩
    rw [hunpack, mulExact, mulExact, if_neg hsig, if_neg hsig]
    exact ⟨rfl, congrArg some hsigns⟩

section
variable {n : Bool} (hproduct : mulExact (unpack F a) (unpack F b) = some (.inf n))
include hproduct

theorem fMul_of_infinite : fMul F mode a b = (infinity F n, .none) := by
  rw [fMul, hproduct]
  rfl

theorem fMulAdd_of_infinite (hc : isFinite F c = true) : fMulAdd F mode p q a b c = (infinity F (n ^^ p), .none) := by
  obtain ⟨_, _, hunpack, -⟩ := unpack_of_isFinite hc
  rw [fMulAdd_of_mulExact hproduct, hunpack, negateIf_inf, negateIf_fin]
  rfl

theorem fMulAdd_of_same_infinities (hc : isInfinite F c = true) (hsigns : (n ^^ p) = (signBit F c ^^ q)) :
    fMulAdd F mode p q a b c = (infinity F (n ^^ p), .none) := by
  rw [fMulAdd_of_mulExact hproduct, unpack_of_isInfinite hc, negateIf_inf, negateIf_inf, addDatum, if_pos hsigns]

theorem fMulAdd_of_opposite_infinities (hc : isInfinite F c = true) (hsigns : (n ^^ p) ≠ (signBit F c ^^ q)) :
    fMulAdd F mode p q a b c = nanResult F true := by
  rw [fMulAdd_of_mulExact hproduct, unpack_of_isInfinite hc, negateIf_inf, negateIf_inf, addDatum, if_neg hsigns]

end

/-! ### Exact zeros and divisions by zero (R304, R305, R319, R325) -/

section
variable {n n' : Bool} {s s' : Nat} {e e' : Int}

theorem roundFin_zero (neg : Bool) (exp : Int) : roundFin F mode neg 0 exp = (zero F neg, .none) := rfl

/-- An exact zero sum has the sign that R304 gives it. -/
theorem addFin_of_sum_eq_zero (h : finValue n s e + finValue n' s' e' = 0) :
    addFin F mode n s e n' s' e' = (zero F (zeroSumNeg mode n n'), .none) := by
  have hpow : (2 : ℚ) ^ min e e' ≠ 0 := zpow_ne_zero _ two_ne_zero
  rw [← scaled_add_mul_zpow, mul_eq_zero_iff_right hpow, Int.cast_eq_zero] at h
  simp only [addFin, roundInt, h]
  rfl

end

section
variable (ha : isFinite F a = true) (hb : isFinite F b = true)
include ha

theorem fSqrt_of_zero (h : valueOf F a = 0) : fSqrt F mode a = (zero F (signBit F a), .none) := by
  obtain ⟨sig, exp, ha', -, hsig⟩ := exists_unpack_eq_fin ha
  rw [fSqrt, ha', sqrtDatum, if_pos (hsig.2 h)]

include hb

/-- The exact product of two finite data. -/
theorem exists_mulExact_eq_fin : ∃ sig exp,
    mulExact (unpack F a) (unpack F b) = some (.fin (signBit F a ^^ signBit F b) sig exp) ∧
      valueOf F a * valueOf F b = finValue (signBit F a ^^ signBit F b) sig exp := by
  obtain ⟨sig, exp, ha', hvalue, -⟩ := exists_unpack_eq_fin ha
  obtain ⟨sig', exp', hb', hvalue', -⟩ := exists_unpack_eq_fin hb
  exact ⟨sig * sig', exp + exp', by rw [ha', hb']; rfl, by rw [hvalue, hvalue', finValue_mul]⟩

theorem fAdd_of_sum_eq_zero (h : valueOf F a + valueOf F b = 0) :
    fAdd F mode a b = (zero F (zeroSumNeg mode (signBit F a) (signBit F b)), .none) := by
  obtain ⟨sig, exp, ha', hvalue, -⟩ := exists_unpack_eq_fin ha
  obtain ⟨sig', exp', hb', hvalue', -⟩ := exists_unpack_eq_fin hb
  rw [hvalue, hvalue'] at h
  rw [fAdd, ha', hb']
  exact addFin_of_sum_eq_zero h

theorem fSub_of_difference_eq_zero (h : valueOf F a - valueOf F b = 0) :
    fSub F mode a b = (zero F (zeroSumNeg mode (signBit F a) (!signBit F b)), .none) := by
  obtain ⟨sig, exp, ha', hvalue, -⟩ := exists_unpack_eq_fin ha
  obtain ⟨sig', exp', hb', hvalue', -⟩ := exists_unpack_eq_fin hb
  rw [hvalue, hvalue', sub_eq_add_neg, ← finValue_not] at h
  rw [fSub, ha', hb']
  exact addFin_of_sum_eq_zero h

theorem fMul_of_product_eq_zero (h : valueOf F a * valueOf F b = 0) :
    fMul F mode a b = (zero F (signBit F a ^^ signBit F b), .none) := by
  obtain ⟨sig, exp, hproduct, hvalue⟩ := exists_mulExact_eq_fin ha hb
  rw [hvalue, finValue_eq_zero_iff] at h
  rw [fMul, hproduct, h]
  rfl

theorem fMulAdd_of_sum_eq_zero (hc : isFinite F c = true)
    (h : signOf p * (valueOf F a * valueOf F b) + signOf q * valueOf F c = 0) :
    fMulAdd F mode p q a b c =
      (zero F (zeroSumNeg mode ((signBit F a ^^ signBit F b) ^^ p) (signBit F c ^^ q)), .none) := by
  obtain ⟨sig, exp, hproduct, hvalue⟩ := exists_mulExact_eq_fin ha hb
  obtain ⟨sig', exp', hc', hvalue', -⟩ := exists_unpack_eq_fin hc
  rw [hvalue, hvalue', ← finValue_xor, ← finValue_xor] at h
  rw [fMulAdd_of_mulExact hproduct, hc', negateIf_fin, negateIf_fin]
  exact addFin_of_sum_eq_zero h

theorem fMulAdd_of_infinite_addend (hc : isInfinite F c = true) :
    fMulAdd F mode p q a b c = (infinity F (signBit F c ^^ q), .none) := by
  obtain ⟨sig, exp, hproduct, -⟩ := exists_mulExact_eq_fin ha hb
  rw [fMulAdd_of_mulExact hproduct, unpack_of_isInfinite hc, negateIf_fin, negateIf_inf]
  rfl

/-- The quotient of finite data by a zero is invalid or infinite, of a zero by any other a zero. -/
theorem fDiv_of_zero :
    (valueOf F a = 0 → valueOf F b ≠ 0 → fDiv F mode a b = (zero F (signBit F a ^^ signBit F b), .none)) ∧
      (valueOf F a ≠ 0 → valueOf F b = 0 →
        fDiv F mode a b = (infinity F (signBit F a ^^ signBit F b), .divideByZero)) ∧
      (valueOf F a = 0 → valueOf F b = 0 → fDiv F mode a b = nanResult F true) := by
  obtain ⟨sig, exp, ha', -, hsig⟩ := exists_unpack_eq_fin ha
  obtain ⟨sig', exp', hb', -, hsig'⟩ := exists_unpack_eq_fin hb
  rw [fDiv, ha', hb', divDatum]
  simp only [ne_eq, ← hsig, ← hsig']
  exact ⟨fun h h' => by rw [if_neg h', if_pos h], fun h h' => by rw [if_pos h', if_neg h],
    fun h h' => by rw [if_pos h', if_pos h]⟩

end

end

end Sys2Proof.Machine
end

section
/-! The statements about NaNs, infinities and zeros (`44_f_single.md` R304, R305). -/

namespace Sys2Proof.Proofs

open Sys2Proof.Machine

/-- Settles O59: a NaN operand decides the result; among numbers, each invalid operation is a case of its definition. -/
theorem naNRules : Obligations.NaNRules := by
  intro F mode a b c p q _ nanWith signaling isZero zeroTimesInf
  refine ⟨fun h => ⟨fAdd_of_nan h, fSub_of_nan h, fMul_of_nan h, fDiv_of_nan h⟩, fSqrt_of_nan, fMulAdd_of_nan,
    fun ha hb => ?infinities, fun h => ⟨fMul_of_zeroTimesInf h, fMulAdd_of_zeroTimesInf h⟩, fun ha hb => ?zeros,
    fun hsign ha => ?root, fun hc ha hb hab hvalid hsigns => ?opposite⟩
  case infinities =>
    have ha' := unpack_of_isInfinite ha
    have hb' := unpack_of_isInfinite hb
    refine ⟨fun hsigns => ?_, fun hsigns => ?_, by rw [fDiv, ha', hb']; rfl⟩
    · rw [fAdd, ha', hb', addDatum, if_neg hsigns]; rfl
    · rw [fSub, ha', hb', Datum.negate, addDatum, if_neg (by simp [hsigns])]; rfl
  case zeros =>
    obtain ⟨-, -, hdiv⟩ := fDiv_of_zero (mode := mode) ha.1 hb.1
    exact hdiv ha.2 hb.2
  case root =>
    rcases ha with hinf | ⟨hfin, hne⟩
    · rw [fSqrt, unpack_of_isInfinite hinf, hsign]; rfl
    · obtain ⟨sig, exp, ha', -, hsig⟩ := exists_unpack_eq_fin hfin
      rw [fSqrt, ha', sqrtDatum, if_neg (mt hsig.1 hne), if_pos hsign]; rfl
  case opposite =>
    rcases hab with hinf | hinf
    · obtain ⟨hproduct, -⟩ := mulExact_of_infinite hinf hb fun hzero => hvalid (.inr ⟨hinf, hzero⟩)
      exact fMulAdd_of_opposite_infinities hproduct hc hsigns
    · obtain ⟨-, hproduct⟩ := mulExact_of_infinite hinf ha fun hzero => hvalid (.inl ⟨hzero, hinf⟩)
      exact fMulAdd_of_opposite_infinities hproduct hc (Bool.xor_comm (signBit F a) _ ▸ hsigns)

/-- Settles O60: finite operands by their exact values; an infinite operand by the cases of the operations, its product
with any number but a zero being an infinity. -/
theorem infinitiesAndZeros : Obligations.InfinitiesAndZeros := by
  intro F mode a b c p q _ sa sb product addend exactly zeroSign
  refine ⟨fun ha hb => ?finite, fun ha hb => ?infFin, fun ha hb => ?infInf, fun ha hc hb hzero hsigns => ?infAddend,
    fun ha hsign => ?root⟩
  case finite =>
    obtain ⟨hzero, hinf, -⟩ := fDiv_of_zero (mode := mode) ha hb
    exact ⟨fAdd_of_sum_eq_zero ha hb, fSub_of_difference_eq_zero ha hb, fMul_of_product_eq_zero ha hb, hzero, hinf,
      fSqrt_of_zero ha, fMulAdd_of_sum_eq_zero ha hb, fMulAdd_of_infinite_addend ha hb⟩
  case infFin =>
    have ha' := unpack_of_isInfinite ha
    obtain ⟨sig, exp, hb', -⟩ := exists_unpack_eq_fin hb
    refine ⟨by rw [fAdd, ha', hb']; rfl, by rw [fSub, ha', hb']; rfl, by rw [fAdd, ha', hb']; rfl,
      by rw [fSub, ha', hb']; rfl, by rw [fDiv, ha', hb']; rfl, by rw [fDiv, ha', hb']; rfl, fun hne => ?_⟩
    obtain ⟨hproduct, hproduct'⟩ := mulExact_of_infinite ha (isNaN_of_isFinite hb) fun hzero => hne hzero.2
    exact ⟨fMul_of_infinite hproduct, Bool.xor_comm sa sb ▸ fMul_of_infinite hproduct',
      fun hc => ⟨fMulAdd_of_infinite hproduct hc, fMulAdd_of_infinite hproduct' hc⟩⟩
  case infInf =>
    have ha' := unpack_of_isInfinite ha
    have hb' := unpack_of_isInfinite hb
    obtain ⟨hproduct, -⟩ := mulExact_of_infinite ha (isNaN_of_isInfinite hb) (not_isZero_of_isInfinite hb)
    refine ⟨fun hsigns => ?_, fun hsigns => ?_, fMul_of_infinite hproduct, fMulAdd_of_infinite hproduct⟩
    · rw [fAdd, ha', hb', addDatum, if_pos hsigns]; rfl
    · rw [fSub, ha', hb', Datum.negate, addDatum, if_pos (Bool.eq_not_of_ne hsigns)]; rfl
  case infAddend =>
    obtain ⟨hproduct, hproduct'⟩ := mulExact_of_infinite ha hb hzero
    exact ⟨fMulAdd_of_same_infinities hproduct hc hsigns, fMulAdd_of_same_infinities hproduct' hc hsigns⟩
  case root =>
    have hpositive : signBit F a = false := hsign
    rw [fSqrt, unpack_of_isInfinite ha, hpositive]; rfl

end Sys2Proof.Proofs
end

section
/-! Comparisons, minimum and maximum, and classes of data (`44_f_single.md` R323 to R328, R334). -/

namespace Sys2Proof.Machine

theorem Datum.lt_asymm {x y : Datum} (h : x.lt y = true) : y.lt x = false := by
  cases x with
  | nan => cases h
  | inf n =>
    cases y with
    | nan => cases h
    | inf m => cases n <;> cases m <;> trivial
    | fin => simpa [Datum.lt] using h
  | fin _ _ e =>
    cases y with
    | nan => cases h
    | inf m => simpa [Datum.lt] using h
    | fin _ _ e' =>
      simp only [Datum.lt, decide_eq_true_eq, decide_eq_false_iff_not, not_lt, min_comm e' e] at h ⊢
      exact h.le

theorem Datum.eqv_of_nan {x y : Datum} (h : (x.isNaN || y.isNaN) = true) : x.eqv y = false := by
  cases x with
  | nan => rfl
  | inf | fin =>
    cases y with
    | nan => rfl
    | inf | fin => cases h

section
variable {F : FloatFormat} {a b : BitVec F.width}

/-! ### The order of two numbers -/

section
variable (ha : isNaN F a = false) (hb : isNaN F b = false)
include ha hb

/-- The order of the operations is that of the bits' values, infinities included. -/
theorem lt_unpack_iff : (unpack F a).lt (unpack F b) = true ↔ Less F a b := by
  cases unpacks F a with
  | nan hnan => rw [ha] at hnan; cases hnan
  | inf _ hinf hfin hunpack =>
    cases unpacks F b with
    | nan hnan => rw [hb] at hnan; cases hnan
    | inf _ hinf' hfin' hunpack' =>
      cases hsign : signBit F a <;> cases hsign' : signBit F b <;>
        simp [Less, Datum.lt, hunpack, hunpack', hinf, hinf', hfin, hsign, hsign']
    | fin _ _ _ hinf' _ hunpack' => simp [Less, Datum.lt, hunpack, hunpack', hinf, hinf', hfin]
  | fin _ _ _ hinf hfin hunpack hvalue =>
    cases unpacks F b with
    | nan hnan => rw [hb] at hnan; cases hnan
    | inf _ hinf' hfin' hunpack' => simp [Less, Datum.lt, hunpack, hunpack', hinf, hinf', hfin']
    | fin _ _ _ hinf' hfin' hunpack' hvalue' =>
      simp [Less, Datum.lt, hunpack, hunpack', hinf, hinf', hfin, hfin', hvalue, hvalue', scaled_lt_scaled_iff]

/-- Two numbers are equal when neither is less. -/
theorem eqv_unpack_iff : (unpack F a).eqv (unpack F b) = true ↔ ¬ Less F a b ∧ ¬ Less F b a := by
  rw [← lt_unpack_iff ha hb, ← lt_unpack_iff hb ha]
  cases unpacks F a with
  | nan hnan => rw [ha] at hnan; cases hnan
  | inf _ _ _ hunpack =>
    cases unpacks F b with
    | nan hnan => rw [hb] at hnan; cases hnan
    | inf _ _ _ hunpack' =>
      rw [hunpack, hunpack']
      cases signBit F a <;> cases signBit F b <;> decide
    | fin _ _ _ _ _ hunpack' => rw [hunpack, hunpack']; cases signBit F a <;> simp [Datum.eqv, Datum.lt]
  | fin _ _ _ _ _ hunpack =>
    cases unpacks F b with
    | nan hnan => rw [hb] at hnan; cases hnan
    | inf _ _ _ hunpack' => rw [hunpack, hunpack']; cases signBit F b <;> simp [Datum.eqv, Datum.lt]
    | fin _ _ _ _ _ hunpack' =>
      simp only [hunpack, hunpack', Datum.eqv, Datum.lt, decide_eq_true_eq, scaled_eq_scaled_iff,
        scaled_lt_scaled_iff, not_lt]
      exact ⟨fun h => ⟨h.ge, h.le⟩, fun ⟨hge, hle⟩ => le_antisymm hle hge⟩

theorem Less.asymm (h : Less F a b) : ¬ Less F b a := by
  rw [← lt_unpack_iff hb ha, Datum.lt_asymm ((lt_unpack_iff ha hb).2 h)]
  exact Bool.false_ne_true

/-! ### Comparisons -/

/-- On numbers the comparisons answer by the order, with no flag. -/
theorem compare_of_numbers :
    fLe F a b = ((unpack F a).lt (unpack F b) || (unpack F a).eqv (unpack F b), .none) ∧
      fLt F a b = ((unpack F a).lt (unpack F b), .none) ∧ fEq F a b = ((unpack F a).eqv (unpack F b), .none) := by
  simp only [fLe, fLt, fEq, isNaN_unpack, isSignaling_unpack, ha, hb, isSignaling_of_not_isNaN ha,
    isSignaling_of_not_isNaN hb]
  exact ⟨rfl, rfl, rfl⟩

theorem compare_of_less (h : Less F a b) :
    fLe F a b = (true, .none) ∧ fLt F a b = (true, .none) ∧ fEq F a b = (false, .none) := by
  have hlt := (lt_unpack_iff ha hb).2 h
  have heqv : (unpack F a).eqv (unpack F b) = false := by simp [← Bool.not_eq_true, eqv_unpack_iff ha hb, h]
  simp [compare_of_numbers ha hb, hlt, heqv]

theorem compare_of_greater (h : Less F b a) :
    fLe F a b = (false, .none) ∧ fLt F a b = (false, .none) ∧ fEq F a b = (false, .none) := by
  have hlt := Datum.lt_asymm ((lt_unpack_iff hb ha).2 h)
  have heqv : (unpack F a).eqv (unpack F b) = false := by simp [← Bool.not_eq_true, eqv_unpack_iff ha hb, h]
  simp [compare_of_numbers ha hb, hlt, heqv]

theorem compare_of_equal (h : ¬ Less F a b) (h' : ¬ Less F b a) :
    fLe F a b = (true, .none) ∧ fLt F a b = (false, .none) ∧ fEq F a b = (true, .none) := by
  have hlt : (unpack F a).lt (unpack F b) = false := by simp [← Bool.not_eq_true, lt_unpack_iff ha hb, h]
  have heqv := (eqv_unpack_iff ha hb).2 ⟨h, h'⟩
  simp [compare_of_numbers ha hb, hlt, heqv]

end

/-- With a NaN operand the comparisons answer 0, FLE and FLT with NV (R326 to R328). -/
theorem compare_of_nan (h : (isNaN F a || isNaN F b) = true) :
    fLe F a b = (false, .invalid) ∧ fLt F a b = (false, .invalid) ∧
      fEq F a b = (false, .invalidIf (isSignaling F a || isSignaling F b)) := by
  have heqv : (unpack F a).eqv (unpack F b) = false := Datum.eqv_of_nan (by simpa only [isNaN_unpack] using h)
  simp only [fLe, fLt, fEq, isNaN_unpack, isSignaling_unpack, h, heqv, if_true, and_self]

/-! ### Minimum and maximum (R323, R324) -/

section
variable (ha : isNaN F a = false) (hb : isNaN F b = false)
include ha hb

theorem smaller_of_less (h : Less F a b) : smaller F a b = true := by simp [smaller, (lt_unpack_iff ha hb).2 h]

theorem smaller_of_greater (h : Less F b a) : smaller F a b = false := by
  have hnot := Less.asymm hb ha h
  simp [smaller, ← Bool.not_eq_true, lt_unpack_iff ha hb, eqv_unpack_iff ha hb, h, hnot]

/-- Of two zeros the negative one is smaller; other equal numbers have equal signs. -/
theorem smaller_of_equal (h : ¬ Less F a b) (h' : ¬ Less F b a) :
    smaller F a b = (signBit F a && !signBit F b) := by
  have hlt : (unpack F a).lt (unpack F b) = false := by simp [← Bool.not_eq_true, lt_unpack_iff ha hb, h]
  simp [smaller, hlt, (eqv_unpack_iff ha hb).2 ⟨h, h'⟩]

end

/-- What FMIN and FMAX give: by the NaN rule, else the operand picked. -/
theorem minMax_cases (F : FloatFormat) (pickFirst : Bool) (a b : BitVec F.width) :
    (minMax F pickFirst a b).2 = { nv := isSignaling F a || isSignaling F b } ∧
    (isNaN F a = true → isNaN F b = true → (minMax F pickFirst a b).1 = canonicalNaN F) ∧
    (isNaN F a = true → isNaN F b = false → (minMax F pickFirst a b).1 = b) ∧
    (isNaN F a = false → isNaN F b = true → (minMax F pickFirst a b).1 = a) ∧
    (isNaN F a = false → isNaN F b = false → (minMax F pickFirst a b).1 = if pickFirst then a else b) := by
  simp only [minMax, isNaN_unpack, isSignaling_unpack]
  refine ⟨rfl, fun h h' => ?_, fun h h' => ?_, fun h h' => ?_, fun h h' => ?_⟩ <;> simp [h, h']

theorem fMin_extreme (F : FloatFormat) (a b : BitVec F.width) : Extreme F true a b (fMin F a b) := by
  obtain ⟨hflags, hnans, hfirst, hsecond, hnumbers⟩ := minMax_cases F (smaller F a b) a b
  refine ⟨hflags, hnans, hfirst, hsecond, fun ha hb => ?_⟩
  rw [fMin, hnumbers ha hb]
  refine ⟨fun h => ?_, fun h => ?_, fun h h' => ?_⟩
  · rw [smaller_of_less ha hb h]
  · rw [smaller_of_greater ha hb h]; rfl
  · rw [smaller_of_equal ha hb h h']
    cases hsign : signBit F a <;> cases hsign' : signBit F b <;> simp [hsign, hsign']

theorem fMax_extreme (F : FloatFormat) (a b : BitVec F.width) : Extreme F false a b (fMax F a b) := by
  obtain ⟨hflags, hnans, hfirst, hsecond, hnumbers⟩ := minMax_cases F (smaller F b a) a b
  refine ⟨hflags, hnans, hfirst, hsecond, fun ha hb => ?_⟩
  rw [fMax, hnumbers ha hb]
  refine ⟨fun h => ?_, fun h => ?_, fun h h' => ?_⟩
  · rw [smaller_of_greater hb ha h]
  · rw [smaller_of_less hb ha h]; rfl
  · rw [smaller_of_equal hb ha h' h]
    cases hsign : signBit F a <;> cases hsign' : signBit F b <;> simp [hsign, hsign']

/-! ### Classes (R334) -/

theorem classBit_unpack (a : BitVec F.width) : classBit F (unpack F a) = classNumber F a := by
  unfold classNumber
  cases unpacks F a with
  | nan hnan _ _ hunpack => simp [classBit, hunpack, hnan]
  | inf hnan hinf _ hunpack => simp [classBit, hunpack, hnan, hinf]
  | fin _ _ hnan hinf hfin =>
    have hexp : expField F a ≠ 2 ^ F.expBits - 1 := by simpa [isFinite] using hfin
    have hfrac : fracField F a < 2 ^ F.fracBits := Nat.mod_lt _ (by positivity)
    simp only [hnan, hinf, unpack, if_neg hexp]
    by_cases hzero : expField F a = 0
    · simp [hzero, classBit, hfrac]
    · simp [hzero, classBit]

theorem classNumber_le_nine (a : BitVec F.width) : classNumber F a ≤ 9 := by
  unfold classNumber
  split_ifs <;> decide

/-- The mask has the bit of the class. -/
theorem setWidth_fClass (w : Nat) (a : BitVec F.width) :
    (fClass F a).setWidth w = BitVec.ofNat w (2 ^ classNumber F a) := by
  have hmask : 2 ^ classNumber F a < 2 ^ 10 :=
      Nat.pow_lt_pow_right (by decide) (Nat.lt_succ_of_le (classNumber_le_nine a))
  apply BitVec.eq_of_toNat_eq
  rw [fClass, classBit_unpack, Nat.one_shiftLeft, BitVec.toNat_setWidth, BitVec.natCast_eq_ofNat, BitVec.toNat_ofNat,
    BitVec.toNat_ofNat, Nat.mod_eq_of_lt hmask]

end

/-! ### What the instructions answer -/

/-- A meaning that completes with the truth value `v` and the flags `f`. -/
theorem answers_of_retireBool {i : Instr} {s : State} {rd : XReg} {r : Bool × Flags} {v : Bool} {f : Flags}
    (hexec : exec i s = retireBool rd r s) (hr : r = (v, f)) :
    Answers i s (ResultXFlags rd (BitVec.ofNat s.bits v.toNat) f) := by
  have hv : boolBits s.bits v = BitVec.ofNat s.bits v.toNat := by
    rw [boolBits, ← BitVec.ofNat_toNat, BitVec.toNat_ofBool]
  subst hr
  exact answers_of_exec_eq hexec (hv ▸ retireBool_resultXFlags rd (v, f) s)

section
variable {F : FloatFormat} {a b : BitVec F.width} {le lt eq : Instr} {s : State} {rd : XReg}
  (hle : exec le s = retireBool rd (fLe F a b) s) (hlt : exec lt s = retireBool rd (fLt F a b) s)
  (heq : exec eq s = retireBool rd (fEq F a b) s)
include hle hlt heq

/-- Three meanings that complete with the comparisons of `a` and `b`, in either format. -/
theorem comparisons_answer :
    let answers (i : Instr) (v : Nat) (f : Flags) := Answers i s (ResultXFlags rd (BitVec.ofNat s.bits v) f)
    ((isNaN F a || isNaN F b) = true → answers le 0 { nv := true } ∧ answers lt 0 { nv := true } ∧
      answers eq 0 { nv := isSignaling F a || isSignaling F b }) ∧
    ((isNaN F a || isNaN F b) = false →
      (Less F a b → answers le 1 {} ∧ answers lt 1 {} ∧ answers eq 0 {}) ∧
      (Less F b a → answers le 0 {} ∧ answers lt 0 {} ∧ answers eq 0 {}) ∧
      (¬ Less F a b → ¬ Less F b a → answers le 1 {} ∧ answers lt 0 {} ∧ answers eq 1 {})) := by
  intro answers
  have hanswers {v v' v'' : Bool} {f f' f'' : Flags} :
      fLe F a b = (v, f) ∧ fLt F a b = (v', f') ∧ fEq F a b = (v'', f'') →
        answers le v.toNat f ∧ answers lt v'.toNat f' ∧ answers eq v''.toNat f'' :=
    fun ⟨h, h', h''⟩ => ⟨answers_of_retireBool hle h, answers_of_retireBool hlt h', answers_of_retireBool heq h''⟩
  refine ⟨fun hnan => hanswers (compare_of_nan hnan), fun hnumbers => ?_⟩
  obtain ⟨ha, hb⟩ := Bool.or_eq_false_iff.1 hnumbers
  exact ⟨fun h => hanswers (compare_of_less ha hb h), fun h => hanswers (compare_of_greater ha hb h),
    fun h h' => hanswers (compare_of_equal ha hb h h')⟩

end

end Sys2Proof.Machine
end

section
/-! The statements about comparisons, minimum and maximum, and classes. -/

namespace Sys2Proof.Proofs

open Sys2Proof.Machine

/-- Settles O51: FMIN picks the smaller operand and FMAX the other, and each delivers the operand it picks. -/
theorem floatMinMax : Obligations.FloatMinMax := by
  intro s rd rs1 rs2
  exact ⟨⟨_, fMin_extreme binary32 _ _, answers_of_retireS rfl⟩, ⟨_, fMax_extreme binary32 _ _, answers_of_retireS rfl⟩,
    ⟨_, fMin_extreme binary64 _ _, answers_of_retireD rfl⟩, ⟨_, fMax_extreme binary64 _ _, answers_of_retireD rfl⟩⟩

/-- Settles O52: in either format the comparisons answer by the order of the values, and FCLASS the bit of the class. -/
theorem floatCompareClassify : Obligations.FloatCompareClassify := by
  refine ⟨fun s rd rs1 rs2 => ?single, fun s rd rs1 rs2 => ?double⟩
  case single =>
    obtain ⟨hnan, hnumbers⟩ := comparisons_answer (F := binary32) (le := .fleS rd rs1 rs2) (lt := .fltS rd rs1 rs2)
      (eq := .feqS rd rs1 rs2) (s := s) (rd := rd) rfl rfl rfl
    exact ⟨hnan, hnumbers, answers_of_retireX rfl (setWidth_fClass (F := binary32) s.bits (readS s rs1))⟩
  case double =>
    obtain ⟨hnan, hnumbers⟩ := comparisons_answer (F := binary64) (le := .fleD rd rs1 rs2) (lt := .fltD rd rs1 rs2)
      (eq := .feqD rd rs1 rs2) (s := s) (rd := rd) rfl rfl rfl
    exact ⟨hnan, hnumbers, answers_of_retireX rfl (setWidth_fClass (F := binary64) s.bits (readF s rs1))⟩

end Sys2Proof.Proofs
end

section
/-! Rounding to a grid: which of the two points of a rising sequence next to a real number each mode picks, and that
`roundShift` picks it on the multiples of a power of two (`44_f_single.md` R304). -/

namespace Sys2Proof.Machine

/-! ### The choice between two neighbours -/

/-- A magnitude `x` of the sign `neg`, from `lo`, which has the number `m` on its grid, to below `hi`, the next point,
goes up. -/
def GoesUp (mode : RoundingMode) (neg : Bool) (m : ℕ) (lo hi x : ℝ) : Prop :=
  match mode with
  | .rne => lo + hi < 2 * x ∨ (lo + hi = 2 * x ∧ m % 2 = 1)
  | .rtz => False
  | .rdn => neg = true ∧ lo < x
  | .rup => neg = false ∧ lo < x
  | .rmm => lo + hi ≤ 2 * x

/-- The mode picks the point `n` of the grid for `x`. -/
def RoundsOn (g : ℕ → ℝ) (mode : RoundingMode) (neg : Bool) (x : ℝ) (n : ℕ) : Prop :=
  ∃ m, g m ≤ x ∧ x < g (m + 1) ∧
    ((n = m ∧ ¬ GoesUp mode neg m (g m) (g (m + 1)) x) ∨ (n = m + 1 ∧ GoesUp mode neg m (g m) (g (m + 1)) x))

/-- A magnitude `x` rounds to `hi` or beyond, where `lo` is the point before `hi` and has an odd number. -/
def Reaches (mode : RoundingMode) (neg : Bool) (lo hi x : ℝ) : Prop :=
  match mode with
  | .rne => lo + hi ≤ 2 * x
  | .rmm => lo + hi ≤ 2 * x
  | .rtz => hi ≤ x
  | .rdn => hi ≤ x ∨ (neg = true ∧ lo < x)
  | .rup => hi ≤ x ∨ (neg = false ∧ lo < x)

section
variable {mode : RoundingMode} {neg : Bool} {m : ℕ} {lo hi x : ℝ}

/-- Scaling changes nothing. -/
theorem goesUp_mul_iff {u : ℝ} (hu : 0 < u) :
    GoesUp mode neg m (lo * u) (hi * u) (x * u) ↔ GoesUp mode neg m lo hi x := by
  have hlt : lo * u < x * u ↔ lo < x := mul_lt_mul_iff_left₀ hu
  have hhalf : lo * u + hi * u < 2 * (x * u) ↔ lo + hi < 2 * x := by
    rw [← add_mul, ← mul_assoc, mul_lt_mul_iff_left₀ hu]
  have htie : lo * u + hi * u = 2 * (x * u) ↔ lo + hi = 2 * x := by
    rw [← add_mul, ← mul_assoc, mul_left_inj' hu.ne']
  have hhalf' : lo * u + hi * u ≤ 2 * (x * u) ↔ lo + hi ≤ 2 * x := by
    rw [le_iff_lt_or_eq, hhalf, htie, ← le_iff_lt_or_eq]
  cases mode <;> simp only [GoesUp, hlt, hhalf, htie, hhalf']

theorem not_goesUp_self (hlohi : lo < hi) : ¬ GoesUp mode neg m lo hi lo := by
  cases mode with
  | rne => rintro (h | ⟨h, -⟩) <;> linarith
  | rmm => intro (h : lo + hi ≤ 2 * lo); linarith
  | rtz => exact id
  | rdn | rup => exact fun h => lt_irrefl lo h.2

theorem reaches_of_le (hlohi : lo < hi) (h : hi ≤ x) : Reaches mode neg lo hi x := by
  cases mode with
  | rne | rmm => show lo + hi ≤ 2 * x; linarith
  | rtz => exact h
  | rdn | rup => exact .inl h

theorem not_reaches_of_le (hlohi : lo < hi) (h : x ≤ lo) : ¬ Reaches mode neg lo hi x := by
  cases mode with
  | rne | rmm => show ¬ lo + hi ≤ 2 * x; linarith
  | rtz => exact not_le.2 (h.trans_lt hlohi)
  | rdn | rup => exact not_or.2 ⟨not_le.2 (h.trans_lt hlohi), fun h' => h'.2.not_ge h⟩

/-- Between the two points, a magnitude reaches the second by going up. -/
theorem goesUp_iff_reaches (hm : m % 2 = 1) (hhi : x < hi) : GoesUp mode neg m lo hi x ↔ Reaches mode neg lo hi x := by
  cases mode with
  | rne => show _ ∨ _ ↔ lo + hi ≤ 2 * x; rw [le_iff_lt_or_eq]; simp only [hm, and_true]
  | rmm => exact Iff.rfl
  | rtz => exact ⟨False.elim, hhi.not_ge⟩
  | rdn | rup => exact (or_iff_right hhi.not_ge).symm

end

section
variable {g : ℕ → ℝ} {mode : RoundingMode} {neg : Bool} {x : ℝ} {n : ℕ}

/-- On a rising grid the point picked is `x` itself exactly when `x` is a point of it. -/
theorem RoundsOn.eq_iff (hg : StrictMono g) (h : RoundsOn g mode neg x n) : g n = x ↔ ∃ k, g k = x := by
  refine ⟨fun hn => ⟨n, hn⟩, fun ⟨k, hk⟩ => ?_⟩
  obtain ⟨m, hlo, hhi, hcases⟩ := h
  have hm : k = m := by
    have h1 : m ≤ k := hg.le_iff_le.1 (hk ▸ hlo)
    have h2 : k < m + 1 := hg.lt_iff_lt.1 (hk ▸ hhi)
    omega
  subst hm hk
  rcases hcases with ⟨rfl, -⟩ | ⟨-, hup⟩
  · rfl
  · exact absurd hup (not_goesUp_self (hg (Nat.lt_succ_self k)))

/-- The point picked is at or beyond an even point exactly when `x` reaches that. -/
theorem RoundsOn.le_iff (hg : StrictMono g) (h : RoundsOn g mode neg x n) {k : ℕ} (hk : k % 2 = 1) :
    k + 1 ≤ n ↔ Reaches mode neg (g k) (g (k + 1)) x := by
  obtain ⟨m, hlo, hhi, hcases⟩ := h
  have hstep : g k < g (k + 1) := hg (Nat.lt_succ_self k)
  rcases lt_trichotomy m k with hmk | rfl | hmk
  · have hx : x ≤ g k := hhi.le.trans (hg.monotone hmk)
    have hn : ¬ k + 1 ≤ n := by rcases hcases with ⟨rfl, -⟩ | ⟨rfl, -⟩ <;> omega
    exact iff_of_false hn (not_reaches_of_le hstep hx)
  · rw [← goesUp_iff_reaches hk hhi]
    rcases hcases with ⟨rfl, hup⟩ | ⟨rfl, hup⟩
    · exact iff_of_false (by omega) hup
    · exact iff_of_true le_rfl hup
  · have hx : g (k + 1) ≤ x := (hg.monotone hmk).trans hlo
    have hn : k + 1 ≤ n := by rcases hcases with ⟨rfl, -⟩ | ⟨rfl, -⟩ <;> omega
    exact iff_of_true hn (reaches_of_le hstep hx)

end

/-! ### Multiples, and numbers that round to the same ones -/

/-- The grid of the multiples of `u`. -/
def multiples (u : ℝ) (k : ℕ) : ℝ := k * u

theorem multiples_strictMono {u : ℝ} (hu : 0 < u) : StrictMono (multiples u) := fun _ _ h =>
  mul_lt_mul_of_pos_right (Nat.cast_lt.2 h) hu

theorem multiples_mul (j k : ℕ) (u : ℝ) : multiples (j * u) k = multiples u (k * j) := by
  rw [multiples, multiples, Nat.cast_mul, mul_assoc]

/-- `x` and `y` are on the same side of every multiple of `h`. -/
def SameSide (h x y : ℝ) : Prop :=
  ∀ k, (multiples h k < x ↔ multiples h k < y) ∧ (x < multiples h k ↔ y < multiples h k)

section
variable {h x y : ℝ}

theorem SameSide.refl (h x : ℝ) : SameSide h x x := fun _ => ⟨Iff.rfl, Iff.rfl⟩

theorem SameSide.mul (hxy : SameSide h x y) (j : ℕ) : SameSide (j * h) x y := fun k => by
  rw [multiples_mul]
  exact hxy (k * j)

theorem SameSide.le_iff (hxy : SameSide h x y) (k : ℕ) : multiples h k ≤ x ↔ multiples h k ≤ y := by
  rw [← not_lt, (hxy k).2, not_lt]

theorem SameSide.eq_iff (hxy : SameSide h x y) (k : ℕ) : multiples h k = x ↔ multiples h k = y := by
  rw [le_antisymm_iff, le_antisymm_iff, hxy.le_iff, ← not_lt (b := x), ← not_lt (b := y), (hxy k).1]

/-- Between two multiples of `2 * h` both go up or neither does: half way is a multiple of `h`. -/
theorem SameSide.goesUp_iff (hxy : SameSide h x y) {mode : RoundingMode} {neg : Bool} (m : ℕ) :
    GoesUp mode neg m (multiples (2 * h) m) (multiples (2 * h) (m + 1)) x ↔
      GoesUp mode neg m (multiples (2 * h) m) (multiples (2 * h) (m + 1)) y := by
  have hlt : multiples (2 * h) m < x ↔ multiples (2 * h) m < y := (hxy.mul 2 m).1
  have hmid : multiples (2 * h) m + multiples (2 * h) (m + 1) = 2 * multiples h (2 * m + 1) := by
    simp only [multiples]; push_cast; ring
  have htwo : (2 : ℝ) ≠ 0 := two_ne_zero
  cases mode with
  | rne => simp only [GoesUp, hmid, mul_lt_mul_iff_right₀ two_pos, mul_right_inj' htwo, (hxy _).1, hxy.eq_iff]
  | rmm => simp only [GoesUp, hmid, mul_le_mul_iff_right₀ two_pos, hxy.le_iff]
  | rtz => exact Iff.rfl
  | rdn | rup => simp only [GoesUp, hlt]

/-- On the multiples of `2 * h` both round to the same point. -/
theorem SameSide.roundsOn (hxy : SameSide h x y) {mode : RoundingMode} {neg : Bool} {n : ℕ}
    (hy : RoundsOn (multiples (2 * h)) mode neg y n) : RoundsOn (multiples (2 * h)) mode neg x n := by
  obtain ⟨m, hlo, hhi, hcases⟩ := hy
  have hxy' : SameSide (2 * h) x y := hxy.mul 2
  exact ⟨m, (hxy'.le_iff m).2 hlo, (hxy' (m + 1)).2.2 hhi, by rwa [hxy.goesUp_iff]⟩

end

/-! ### Rounding to the multiples of a power of two -/

section
variable (mode : RoundingMode) (neg : Bool) (sig : ℕ) (exp q : ℤ)

/-- The model's choice, over naturals: `sig` between two multiples of `unit`. -/
theorem roundsUp_iff (unit : ℕ) : roundsUp mode neg (sig / unit) (sig % unit) unit = true ↔
    GoesUp mode neg (sig / unit) (multiples unit (sig / unit)) (multiples unit (sig / unit + 1)) sig := by
  have hdiv : sig / unit * unit + sig % unit = sig := Nat.div_add_mod' sig unit
  have hlo : multiples unit (sig / unit) = (sig / unit * unit : ℕ) := (Nat.cast_mul _ _).symm
  have hhi : multiples unit (sig / unit + 1) = (sig / unit * unit + unit : ℕ) := by rw [multiples]; push_cast; ring
  rw [hlo, hhi]
  generalize sig / unit * unit = lo at hdiv ⊢
  cases mode with
  | rne =>
    simp only [roundsUp, GoesUp, Bool.or_eq_true, Bool.and_eq_true, decide_eq_true_eq, beq_iff_eq]
    norm_cast
    omega
  | rmm =>
    simp only [roundsUp, GoesUp, decide_eq_true_eq]
    norm_cast
    omega
  | rtz => simp [roundsUp, GoesUp]
  | rdn | rup =>
    simp only [roundsUp, GoesUp, Bool.and_eq_true, Bool.not_eq_true', bne_iff_ne, Nat.cast_lt]
    refine and_congr_right fun _ => ?_
    omega

/-- `sig` rounded to the multiples of `unit`. -/
theorem roundsOn_div {unit : ℕ} (hunit : 0 < unit) : RoundsOn (multiples unit) mode neg sig
    (sig / unit + if roundsUp mode neg (sig / unit) (sig % unit) unit then 1 else 0) := by
  have hhi : sig < (sig / unit + 1) * unit := Nat.lt_mul_of_div_lt (Nat.lt_succ_self _) hunit
  refine ⟨sig / unit, ?_, ?_, ?_⟩
  · rw [multiples]
    exact_mod_cast Nat.div_mul_le_self sig unit
  · rw [multiples]
    exact_mod_cast hhi
  · rw [← roundsUp_iff mode neg sig unit]
    split_ifs with hup
    · exact .inr ⟨rfl, hup⟩
    · exact .inl ⟨rfl, hup⟩

/-- A point of the grid rounds to itself. -/
theorem roundsOn_self {g : ℕ → ℝ} (hg : StrictMono g) (n : ℕ) : RoundsOn g mode neg (g n) n :=
  ⟨n, le_rfl, hg (Nat.lt_succ_self n), .inl ⟨rfl, not_goesUp_self (hg (Nat.lt_succ_self n))⟩⟩

theorem RoundsOn.mul {u x : ℝ} {n : ℕ} (hu : 0 < u) {k : ℝ} (h : RoundsOn (multiples k) mode neg x n) :
    RoundsOn (multiples (k * u)) mode neg (x * u) n := by
  have hpoint (j : ℕ) : multiples (k * u) j = multiples k j * u := (mul_assoc _ _ _).symm
  obtain ⟨m, hlo, hhi, hcases⟩ := h
  refine ⟨m, ?_, ?_, ?_⟩
  · rw [hpoint]
    exact mul_le_mul_of_nonneg_right hlo hu.le
  · rw [hpoint]
    exact mul_lt_mul_of_pos_right hhi hu
  · rwa [hpoint, hpoint, goesUp_mul_iff hu]

section
variable {exp q}

theorem mul_zpow_of_shift_nonneg (h : 0 ≤ exp - q) :
    (sig : ℝ) * (2 : ℝ) ^ exp = multiples ((2 : ℝ) ^ q) (sig * 2 ^ (exp - q).toNat) := by
  have hexp : exp = ((exp - q).toNat : ℤ) + q := by omega
  rw [multiples]
  conv_lhs => rw [hexp, zpow_add₀ two_ne_zero, zpow_natCast]
  push_cast
  ring

theorem zpow_of_shift_neg (h : ¬ 0 ≤ exp - q) :
    (2 : ℝ) ^ q = (2 ^ (-(exp - q)).toNat : ℕ) * (2 : ℝ) ^ exp := by
  have hq : q = ((-(exp - q)).toNat : ℤ) + exp := by omega
  conv_lhs => rw [hq, zpow_add₀ two_ne_zero, zpow_natCast]
  push_cast
  ring

end

/-- `roundShift` rounds `sig * 2^exp` to the multiples of `2^q`. -/
theorem roundShift_roundsOn : RoundsOn (multiples ((2 : ℝ) ^ q)) mode neg (sig * (2 : ℝ) ^ exp)
    (roundShift mode neg sig (exp - q)).1 := by
  unfold roundShift
  split_ifs with hshift
  · rw [mul_zpow_of_shift_nonneg sig hshift]
    exact roundsOn_self mode neg (multiples_strictMono (by positivity)) _
  · rw [zpow_of_shift_neg hshift]
    exact (roundsOn_div mode neg sig (by positivity)).mul mode neg (by positivity)

/-- `roundShift` says that it changed the magnitude exactly when that is no multiple of `2^q`. -/
theorem roundShift_inexact_iff : (roundShift mode neg sig (exp - q)).2 = true ↔
    ∀ k, multiples ((2 : ℝ) ^ q) k ≠ sig * (2 : ℝ) ^ exp := by
  unfold roundShift
  split_ifs with hshift
  · exact iff_of_false (by simp) fun h => h _ (mul_zpow_of_shift_nonneg sig hshift).symm
  · have hexp : (2 : ℝ) ^ exp ≠ 0 := zpow_ne_zero _ two_ne_zero
    have hpoint (k : ℕ) : multiples ((2 : ℝ) ^ q) k = sig * (2 : ℝ) ^ exp ↔ k * 2 ^ (-(exp - q)).toNat = sig := by
      rw [zpow_of_shift_neg hshift, multiples, ← mul_assoc, mul_left_inj' hexp]
      norm_cast
    simp only [ne_eq, hpoint, bne_iff_ne, ← Nat.dvd_iff_mod_eq_zero, dvd_def, not_exists, mul_comm, eq_comm (b := sig)]

end

end Sys2Proof.Machine
end

section
/-! The finite data as a rising grid of magnitudes: the exponent and fraction bits together number them
(`44_f_single.md` R300, `45_d_double.md` R370). -/

namespace Sys2Proof.Machine

theorem IsFormat.two_le_expBits {F : FloatFormat} (hF : IsFormat F) : 2 ≤ F.expBits := by
  rcases hF with rfl | rfl <;> decide

theorem IsFormat.one_le_fracBits {F : FloatFormat} (hF : IsFormat F) : 1 ≤ F.fracBits := by
  rcases hF with rfl | rfl <;> decide

/-- The exponent and fraction bits of a datum. -/
def magnitude (F : FloatFormat) (b : BitVec F.width) : ℕ := expField F b * 2 ^ F.fracBits + fracField F b

/-- The value of the magnitude `n`, as if there were exponents without end: it has the unit `2^(qmin + k)`, where `k` is
the exponent field less one, or 0 for a subnormal number. -/
def magValue (F : FloatFormat) (n : ℕ) : ℚ :=
  ((n - (n / 2 ^ F.fracBits - 1) * 2 ^ F.fracBits : ℕ) : ℚ) * (2 : ℚ) ^ (F.qmin + (n / 2 ^ F.fracBits - 1 : ℕ))

section
variable (F : FloatFormat)

/-- `k` exponents beyond the subnormal one, `n` units of `2^(qmin + k)`: the carry into the next exponent included. -/
theorem magValue_mul_add {k n : ℕ} (hn : n ≤ 2 ^ (F.fracBits + 1)) (hk : k = 0 ∨ 2 ^ F.fracBits ≤ n) :
    magValue F (k * 2 ^ F.fracBits + n) = n * (2 : ℚ) ^ (F.qmin + k) := by
  have hpos : 0 < 2 ^ F.fracBits := by positivity
  have hdiv : (k * 2 ^ F.fracBits + n) / 2 ^ F.fracBits = k + n / 2 ^ F.fracBits := by
    rw [add_comm, Nat.add_mul_div_right _ _ hpos, add_comm]
  rw [pow_succ] at hn
  rw [magValue, hdiv]
  rcases hn.eq_or_lt with rfl | hlt
  · have hunits : k * 2 ^ F.fracBits + 2 ^ F.fracBits * 2 - (k + 1) * 2 ^ F.fracBits = 2 ^ F.fracBits := by
      rw [add_mul, one_mul]
      omega
    rw [Nat.mul_div_cancel_left _ hpos, show k + 2 - 1 = k + 1 from rfl, hunits, Nat.cast_add, ← add_assoc,
      zpow_add₀ two_ne_zero _ ((1 : ℕ) : ℤ), Nat.cast_mul]
    norm_num
    ring
  · have hquot : n / 2 ^ F.fracBits ≤ 1 := Nat.le_of_lt_succ (Nat.div_lt_of_lt_mul hlt)
    have hexp : k + n / 2 ^ F.fracBits - 1 = k := by
      rcases hk with rfl | hk
      · omega
      · have := (Nat.one_le_div_iff hpos).2 hk
        omega
    rw [hexp, Nat.add_sub_cancel_left]

/-- Every magnitude is so many units beyond so many exponents. -/
theorem exists_eq_mul_add (n : ℕ) : ∃ k m, n = k * 2 ^ F.fracBits + m ∧ m < 2 ^ (F.fracBits + 1) ∧
    (k = 0 ∨ 2 ^ F.fracBits ≤ m) := by
  have hmod : n % 2 ^ F.fracBits < 2 ^ F.fracBits := Nat.mod_lt _ (by positivity)
  have hn := Nat.div_add_mod' n (2 ^ F.fracBits)
  rw [pow_succ]
  cases hquot : n / 2 ^ F.fracBits with
  | zero => exact ⟨0, n, by omega, by rw [hquot] at hn; omega, .inl rfl⟩
  | succ k =>
    rw [hquot, add_mul, one_mul] at hn
    exact ⟨k, 2 ^ F.fracBits + n % 2 ^ F.fracBits, by omega, by omega, .inr (Nat.le_add_right _ _)⟩

theorem magValue_strictMono : StrictMono (magValue F) := strictMono_nat_of_lt_succ fun n => by
  obtain ⟨k, m, rfl, hm, hk⟩ := exists_eq_mul_add F n
  have hpow : (0 : ℚ) < (2 : ℚ) ^ (F.qmin + k) := by positivity
  rw [add_assoc, magValue_mul_add F hm.le hk, magValue_mul_add F hm (hk.imp_right (Nat.le_succ_of_le ·))]
  exact mul_lt_mul_of_pos_right (Nat.cast_lt.2 (Nat.lt_succ_self m)) hpow

theorem magValue_zero : magValue F 0 = 0 := by simp [magValue]

theorem magValue_nonneg (n : ℕ) : 0 ≤ magValue F n := by unfold magValue; positivity

end

section
variable {F : FloatFormat}

theorem fracField_lt (b : BitVec F.width) : fracField F b < 2 ^ F.fracBits := Nat.mod_lt _ (by positivity)

theorem expField_lt (b : BitVec F.width) : expField F b < 2 ^ F.expBits := Nat.mod_lt _ (by positivity)

/-- The value of a finite datum, from its sign and its magnitude (R300). -/
theorem valueOf_eq (b : BitVec F.width) : valueOf F b = signOf (signBit F b) * magValue F (magnitude F b) := by
  have hfrac := fracField_lt b
  have hpow : 2 ^ (F.fracBits + 1) = 2 ^ F.fracBits * 2 := pow_succ _ _
  rw [valueOf, magnitude]
  congr 1
  cases hexp : expField F b with
  | zero => rw [if_pos rfl, magValue_mul_add F (by omega) (.inl rfl), Nat.cast_zero, add_zero]
  | succ k =>
    have hunits : (k + 1) * 2 ^ F.fracBits + fracField F b = k * 2 ^ F.fracBits + (2 ^ F.fracBits + fracField F b) := by
      ring
    have hqmin : ((k + 1 : ℕ) : ℤ) - F.bias = F.qmin + k + F.fracBits := by
      unfold FloatFormat.qmin FloatFormat.emin
      push_cast
      ring
    rw [if_neg (Nat.succ_ne_zero k), hunits, magValue_mul_add F (by omega) (.inr (Nat.le_add_right _ _)), hqmin,
      zpow_add₀ two_ne_zero _ (F.fracBits : ℤ), zpow_natCast]
    push_cast
    field_simp

theorem isFinite_iff_magnitude_lt (b : BitVec F.width) : isFinite F b = true ↔ magnitude F b < F.infMag := by
  have hpos : 0 < 2 ^ F.fracBits := by positivity
  have hexp := expField_lt b
  have hdiv : magnitude F b / 2 ^ F.fracBits = expField F b := by
    rw [magnitude, add_comm, Nat.add_mul_div_right _ _ hpos, Nat.div_eq_of_lt (fracField_lt b), zero_add]
  rw [FloatFormat.infMag, ← Nat.div_lt_iff_lt_mul hpos, hdiv, isFinite, bne_iff_ne]
  omega

end

/-! ### The end of the finite data -/

section
variable {F : FloatFormat} (hF : IsFormat F)
include hF

/-- The exponents, from the subnormal one to the last finite one, end at the bias. -/
theorem qmin_add_last : F.qmin + (2 ^ F.expBits - 2 : ℕ) = F.bias + 1 - F.fracBits := by
  rcases hF with rfl | rfl <;> rfl

theorem infMag_mod_two : F.infMag % 2 = 0 := by rcases hF with rfl | rfl <;> rfl

/-- Infinity stands where the next power of two would. -/
theorem magValue_infMag : magValue F F.infMag = topOf F := by
  have hpow : 2 ^ 2 ≤ 2 ^ F.expBits := Nat.pow_le_pow_right (by decide) hF.two_le_expBits
  have hmag : F.infMag = (2 ^ F.expBits - 2) * 2 ^ F.fracBits + 2 ^ F.fracBits := by
    rw [FloatFormat.infMag, ← Nat.succ_mul]
    congr 1
    omega
  rw [hmag, magValue_mul_add F (Nat.pow_le_pow_right (by decide) (Nat.le_succ _)) (.inr le_rfl), qmin_add_last hF,
    Nat.cast_pow, Nat.cast_ofNat, ← zpow_natCast, ← zpow_add₀ two_ne_zero, add_sub_cancel]
  rfl

/-- The largest finite magnitude. -/
theorem magValue_infMag_pred : magValue F (F.infMag - 1) = topOf F - topUnit F := by
  have hpow : 2 ^ 2 ≤ 2 ^ F.expBits := Nat.pow_le_pow_right (by decide) hF.two_le_expBits
  have hpos : 0 < 2 ^ F.fracBits := by positivity
  have hmag : F.infMag - 1 = (2 ^ F.expBits - 3) * 2 ^ F.fracBits + (2 ^ (F.fracBits + 1) - 1) := by
    obtain ⟨k, hk⟩ := Nat.exists_eq_add_of_le hpow
    rw [FloatFormat.infMag, hk]
    have h1 : 2 ^ 2 + k - 1 = k + 3 := by omega
    have h2 : 2 ^ 2 + k - 3 = k + 1 := by omega
    rw [h1, h2, pow_succ, add_mul, add_mul]
    omega
  have hexp : F.qmin + (2 ^ F.expBits - 3 : ℕ) = F.bias - F.fracBits := by
    have hlast := qmin_add_last hF
    omega
  have htop : topOf F = 2 ^ (F.fracBits + 1) * topUnit F := by
    rw [topOf, topUnit, ← zpow_natCast, ← zpow_add₀ two_ne_zero]
    congr 1
    push_cast
    ring
  rw [hmag, magValue_mul_add F (Nat.sub_le _ _) (.inr (by rw [pow_succ]; omega)), hexp, htop,
    Nat.cast_sub Nat.one_le_two_pow, ← topUnit]
  push_cast
  ring

end

/-! ### Packed data -/

section
variable {F : FloatFormat} {neg : Bool} {n : ℕ}

theorem lt_two_pow_of_le_infMag (h : n ≤ F.infMag) : n < 2 ^ (F.expBits + F.fracBits) := by
  refine h.trans_lt ?_
  rw [FloatFormat.infMag, pow_add]
  exact Nat.mul_lt_mul_of_pos_right (Nat.sub_lt (by positivity) one_pos) (by positivity)

theorem magnitude_pack (h : n ≤ F.infMag) : magnitude F (pack F neg n) = n := by
  have hn := lt_two_pow_of_le_infMag h
  rw [magnitude, expField_pack hn, fracField_pack hn, Nat.div_add_mod']

theorem valueOf_pack (h : n ≤ F.infMag) : valueOf F (pack F neg n) = signOf neg * magValue F n := by
  rw [valueOf_eq, signBit_pack (lt_two_pow_of_le_infMag h), magnitude_pack h]

theorem isFinite_pack (h : n < F.infMag) : isFinite F (pack F neg n) = true := by
  rwa [isFinite_iff_magnitude_lt, magnitude_pack h.le]

theorem isInfinite_pack_infMag : isInfinite F (pack F neg F.infMag) = true := by
  have hfin : isFinite F (pack F neg F.infMag) = false := by
    rw [← Bool.not_eq_true, isFinite_iff_magnitude_lt, magnitude_pack le_rfl]
    exact lt_irrefl _
  rw [isInfinite, hfin, fracField_pack (lt_two_pow_of_le_infMag le_rfl), FloatFormat.infMag, Nat.mul_mod_left]
  rfl

/-- The last bit of a packed datum says whether its magnitude is odd. -/
theorem getLsbD_zero_pack (hF : IsFormat F) (h : n ≤ F.infMag) (heven : n % 2 = 0) :
    (pack F neg n).getLsbD 0 = false := by
  have hsign : 2 ∣ 2 ^ (F.expBits + F.fracBits) := dvd_pow_self 2 (by have := hF.two_le_expBits; omega)
  rw [BitVec.getLsbD, toNat_pack (lt_two_pow_of_le_infMag h), Nat.testBit_zero, decide_eq_false_iff_not]
  split <;> omega

end

end Sys2Proof.Machine
end

section
/-! The datum that each mode picks among all finite data is the one whose magnitude it picks on the grid of magnitudes
(`10_state.md` R31, `44_f_single.md` R304). -/

namespace Sys2Proof.Machine

/-! ### Between two neighbours -/

section
variable {lo hi x y : ℝ}

theorem abs_sub_lo_le (hlo : lo ≤ x) (hnear : 2 * x ≤ lo + hi) (hy : y ≤ lo ∨ hi ≤ y) : |x - lo| ≤ |x - y| := by
  rw [abs_of_nonneg (sub_nonneg.2 hlo), le_abs]
  rcases hy with hy | hy
  · exact .inl (by linarith)
  · exact .inr (by linarith)

theorem abs_sub_hi_le (hhi : x < hi) (hnear : lo + hi ≤ 2 * x) (hy : y ≤ lo ∨ hi ≤ y) : |x - hi| ≤ |x - y| := by
  rw [abs_sub_comm x hi, abs_of_nonneg (sub_nonneg.2 hhi.le), le_abs]
  rcases hy with hy | hy
  · exact .inl (by linarith)
  · exact .inr (by linarith)

theorem eq_lo_of_abs_sub_eq (hlo : lo ≤ x) (hnear : 2 * x < lo + hi) (hy : y ≤ lo ∨ hi ≤ y)
    (h : |x - y| = |x - lo|) : y = lo := by
  rw [abs_of_nonneg (sub_nonneg.2 hlo)] at h
  rcases hy with hy | hy
  · rw [abs_of_nonneg (by linarith)] at h
    linarith
  · have := neg_le_abs (x - y)
    linarith

theorem eq_hi_of_abs_sub_eq (hhi : x < hi) (hnear : lo + hi < 2 * x) (hy : y ≤ lo ∨ hi ≤ y)
    (h : |x - y| = |x - hi|) : y = hi := by
  rw [abs_sub_comm x hi, abs_of_nonneg (sub_nonneg.2 hhi.le)] at h
  rcases hy with hy | hy
  · have := le_abs_self (x - y)
    linarith
  · rw [abs_sub_comm, abs_of_nonneg (by linarith)] at h
    linarith

end

/-! ### The grid of magnitudes -/

/-- The values of the magnitudes. -/
def magGrid (F : FloatFormat) (n : ℕ) : ℝ := magValue F n

/-- `±x`. -/
def withSign (neg : Bool) (x : ℝ) : ℝ := (signOf neg : ℝ) * x

section
variable (neg : Bool) (x y : ℝ)

theorem withSign_false : withSign false x = x := by simp [withSign, signOf]

theorem withSign_true : withSign true x = -x := by simp [withSign, signOf]

theorem abs_withSign : |withSign neg x| = |x| := by
  cases neg
  · rw [withSign_false]
  · rw [withSign_true, abs_neg]

theorem withSign_withSign : withSign neg (withSign neg x) = x := by
  cases neg
  · rw [withSign_false, withSign_false]
  · rw [withSign_true, withSign_true, neg_neg]

theorem withSign_inj : withSign neg x = withSign neg y ↔ x = y :=
  ⟨fun h => by rw [← withSign_withSign neg x, h, withSign_withSign], congrArg _⟩

/-- Distances are the same from the other side. -/
theorem abs_withSign_sub : |withSign neg x - y| = |x - withSign neg y| := by
  cases neg
  · rw [withSign_false, withSign_false]
  · rw [withSign_true, withSign_true, abs_sub_comm, sub_neg_eq_add, sub_neg_eq_add, add_comm]

theorem withSign_lt_zero_iff {x : ℝ} (hx : 0 < x) : withSign neg x < 0 ↔ neg = true := by
  cases neg
  · simp [withSign_false, hx.le]
  · simp [withSign_true, hx]

theorem zero_lt_withSign_iff {x : ℝ} (hx : 0 < x) : 0 < withSign neg x ↔ neg = false := by
  cases neg
  · simp [withSign_false, hx]
  · simp [withSign_true, hx.le]

end

section
variable {F : FloatFormat}

theorem magGrid_strictMono (F : FloatFormat) : StrictMono (magGrid F) := fun _ _ h =>
  Rat.cast_lt.2 (magValue_strictMono F h)

theorem magGrid_nonneg (F : FloatFormat) (n : ℕ) : 0 ≤ magGrid F n := Rat.cast_nonneg.2 (magValue_nonneg F n)

theorem valueOf_eq_withSign (b : BitVec F.width) :
    (valueOf F b : ℝ) = withSign (signBit F b) (magGrid F (magnitude F b)) := by
  rw [valueOf_eq, Rat.cast_mul]
  rfl

theorem abs_valueOf (b : BitVec F.width) : |(valueOf F b : ℝ)| = magGrid F (magnitude F b) := by
  rw [valueOf_eq_withSign, abs_withSign, abs_of_nonneg (magGrid_nonneg F _)]

theorem valueOf_pack_eq_withSign {neg : Bool} {n : ℕ} (h : n < F.infMag) :
    (valueOf F (pack F neg n) : ℝ) = withSign neg (magGrid F n) := by
  rw [valueOf_pack h.le, Rat.cast_mul]
  rfl

/-- No datum lies strictly between two neighbours of the grid, whatever its sign. -/
theorem valueOf_outside (neg : Bool) (m : ℕ) (b : BitVec F.width) :
    withSign neg (valueOf F b) ≤ magGrid F m ∨ magGrid F (m + 1) ≤ withSign neg (valueOf F b) := by
  have hnonneg := magGrid_nonneg F (magnitude F b)
  by_cases hsign : signBit F b = neg
  · rw [valueOf_eq_withSign, hsign, withSign_withSign]
    rcases le_or_gt (magnitude F b) m with hm | hm
    · exact .inl ((magGrid_strictMono F).monotone hm)
    · exact .inr ((magGrid_strictMono F).monotone hm)
  · have hneg : withSign neg (valueOf F b) = -magGrid F (magnitude F b) := by
      rw [valueOf_eq_withSign]
      cases neg <;> simp_all [withSign_true, withSign_false]
    rw [hneg]
    exact .inl ((neg_nonpos.2 hnonneg).trans (magGrid_nonneg F m))

/-! ### The datum picked -/

section
variable {mode : RoundingMode} {neg : Bool} {x : ℝ} {n : ℕ}

/-- A magnitude that does not go up: no datum is between the one picked and `x`, on the side toward zero. -/
theorem RoundsOn.toward (h : RoundsOn (magGrid F) mode neg x n) (hmode : ∀ m lo hi, ¬ GoesUp mode neg m lo hi x) :
    magGrid F n ≤ x ∧
      ∀ b : BitVec F.width, withSign neg (valueOf F b) ≤ x → withSign neg (valueOf F b) ≤ magGrid F n := by
  obtain ⟨m, hlo, hhi, ⟨rfl, -⟩ | ⟨-, hup⟩⟩ := h
  · refine ⟨hlo, fun b hb => ?_⟩
    rcases valueOf_outside neg n b with hout | hout
    · exact hout
    · exact absurd (hb.trans_lt hhi) hout.not_gt
  · exact absurd hup (hmode _ _ _)

/-- Truncation picks the last magnitude that `x` does not exceed. -/
theorem RoundsOn.magGrid_le (h : RoundsOn (magGrid F) .rtz neg x n) {k : ℕ} (hk : magGrid F k ≤ x) :
    magGrid F k ≤ magGrid F n := by
  obtain ⟨m, -, hhi, ⟨rfl, -⟩ | ⟨-, hup⟩⟩ := h
  · exact (magGrid_strictMono F).monotone (Nat.le_of_lt_succ ((magGrid_strictMono F).lt_iff_lt.1 (hk.trans_lt hhi)))
  · exact absurd hup id

/-- A magnitude that goes up unless it is a point of the grid: the same on the other side. -/
theorem RoundsOn.away (h : RoundsOn (magGrid F) mode neg x n) (hmode : ∀ m lo hi, GoesUp mode neg m lo hi x ↔ lo < x) :
    x ≤ magGrid F n ∧
      ∀ b : BitVec F.width, x ≤ withSign neg (valueOf F b) → magGrid F n ≤ withSign neg (valueOf F b) := by
  obtain ⟨m, hlo, hhi, ⟨rfl, hup⟩ | ⟨rfl, hup⟩⟩ := h <;> rw [hmode] at hup
  · exact ⟨not_lt.1 hup, fun b hb => hlo.trans hb⟩
  · refine ⟨hhi.le, fun b hb => ?_⟩
    rcases valueOf_outside neg m b with hout | hout
    · exact absurd (hb.trans hout) hup.not_ge
    · exact hout

/-- Rounding to nearest, whatever becomes of ties. -/
theorem RoundsOn.nearest (h : RoundsOn (magGrid F) mode neg x n)
    (hdown : ∀ m lo hi, ¬ GoesUp mode neg m lo hi x → 2 * x ≤ lo + hi)
    (hup : ∀ m lo hi, GoesUp mode neg m lo hi x → lo + hi ≤ 2 * x) (b : BitVec F.width) :
    |x - magGrid F n| ≤ |x - withSign neg (valueOf F b)| := by
  obtain ⟨m, hlo, hhi, ⟨rfl, hcase⟩ | ⟨rfl, hcase⟩⟩ := h
  · exact abs_sub_lo_le hlo (hdown _ _ _ hcase) (valueOf_outside neg n b)
  · exact abs_sub_hi_le hhi (hup _ _ _ hcase) (valueOf_outside neg m b)

/-- Ties to even: another datum as near as the one picked leaves the picked magnitude even. -/
theorem RoundsOn.even_of_tie (h : RoundsOn (magGrid F) .rne neg x n) {b : BitVec F.width}
    (hne : withSign neg (valueOf F b) ≠ magGrid F n)
    (htie : |x - withSign neg (valueOf F b)| = |x - magGrid F n|) : n % 2 = 0 := by
  obtain ⟨m, hlo, hhi, ⟨rfl, hup⟩ | ⟨rfl, hup⟩⟩ := h
  · obtain ⟨hnear, hodd⟩ := not_or.1 hup
    by_contra hn
    have hstrict : 2 * x < magGrid F n + magGrid F (n + 1) :=
      lt_of_le_of_ne (not_lt.1 hnear) fun heq => hodd ⟨heq.symm, by omega⟩
    exact hne (eq_lo_of_abs_sub_eq hlo hstrict (valueOf_outside neg n b) htie)
  · rcases hup with hnear | ⟨-, hodd⟩
    · exact absurd (eq_hi_of_abs_sub_eq hhi hnear (valueOf_outside neg m b) htie) hne
    · omega

/-- Ties away from zero: no datum as near as the one picked is greater. -/
theorem RoundsOn.abs_le_of_tie (h : RoundsOn (magGrid F) .rmm neg x n) {b : BitVec F.width}
    (htie : |x - withSign neg (valueOf F b)| = |x - magGrid F n|) : |withSign neg (valueOf F b)| ≤ magGrid F n := by
  obtain ⟨m, hlo, hhi, ⟨rfl, hup⟩ | ⟨rfl, hup⟩⟩ := h
  · rw [eq_lo_of_abs_sub_eq hlo (not_le.1 hup) (valueOf_outside neg n b) htie, abs_of_nonneg (magGrid_nonneg F n)]
  · have hhalf : magGrid F m + magGrid F (m + 1) ≤ 2 * x := hup
    have hpos := magGrid_nonneg F m
    rw [abs_sub_comm x (magGrid F (m + 1)), abs_of_nonneg (sub_nonneg.2 hhi.le)] at htie
    have hfar := abs_le.1 htie.le
    exact abs_le.2 ⟨by linarith, by linarith⟩

/-- The datum of the magnitude picked is the datum that the mode picks. -/
theorem roundsTo_pack (hF : IsFormat F) (h : RoundsOn (magGrid F) mode neg x n) (hx : 0 < x) (hn : n < F.infMag) :
    RoundsTo F mode (withSign neg x) (pack F neg n) := by
  have hvalue : withSign neg (valueOf F (pack F neg n)) = magGrid F n := by
    rw [valueOf_pack_eq_withSign hn, withSign_withSign]
  have habs : |(valueOf F (pack F neg n) : ℝ)| = magGrid F n := by rw [abs_valueOf, magnitude_pack hn.le]
  have habs' (b : BitVec F.width) : |withSign neg (valueOf F b)| = |(valueOf F b : ℝ)| := abs_withSign _ _
  cases mode with
  | rne =>
    refine ⟨fun b _ => ?_, fun b _ hne htie => getLsbD_zero_pack hF hn.le (h.even_of_tie (b := b) ?_ ?_)⟩
    · rw [abs_withSign_sub, abs_withSign_sub, hvalue]
      exact h.nearest (fun _ _ _ hup => not_lt.1 (not_or.1 hup).1) (fun _ _ _ hup => hup.elim le_of_lt (·.1.le)) b
    · intro heq
      rw [← hvalue] at heq
      have hsame := congrArg (withSign neg) heq
      rw [withSign_withSign, withSign_withSign] at hsame
      exact hne (Rat.cast_injective hsame)
    · rwa [abs_withSign_sub, abs_withSign_sub, hvalue] at htie
  | rmm =>
    refine ⟨fun b _ => ?_, fun b _ htie => ?_⟩
    · rw [abs_withSign_sub, abs_withSign_sub, hvalue]
      exact h.nearest (fun _ _ _ hup => (not_le.1 hup).le) (fun _ _ _ hup => hup) b
    · rw [abs_withSign_sub, abs_withSign_sub, hvalue] at htie
      rw [habs, ← habs']
      exact h.abs_le_of_tie htie
  | rtz =>
    rw [RoundsTo, habs, abs_withSign, abs_of_pos hx]
    refine ⟨(h.toward fun _ _ _ => id).1, fun b _ hb => ?_⟩
    rw [abs_valueOf] at hb ⊢
    exact h.magGrid_le hb
  | rdn =>
    cases neg with
    | false =>
      obtain ⟨hle, hmax⟩ := h.toward fun _ _ _ hup => Bool.false_ne_true hup.1
      simp only [withSign_false] at hvalue hmax ⊢
      rw [RoundsTo, hvalue]
      exact ⟨hle, fun b _ => hmax b⟩
    | true =>
      obtain ⟨hle, hmin⟩ := h.away fun _ _ _ => and_iff_right rfl
      simp only [withSign_true] at hvalue hmin ⊢
      rw [RoundsTo]
      refine ⟨by linarith, fun b _ hb => ?_⟩
      have := hmin b (by linarith)
      linarith
  | rup =>
    cases neg with
    | false =>
      obtain ⟨hle, hmin⟩ := h.away fun _ _ _ => and_iff_right rfl
      simp only [withSign_false] at hvalue hmin ⊢
      rw [RoundsTo, hvalue]
      exact ⟨hle, fun b _ => hmin b⟩
    | true =>
      obtain ⟨hle, hmax⟩ := h.toward fun _ _ _ hup => Bool.false_ne_true hup.1.symm
      simp only [withSign_true] at hvalue hmax ⊢
      rw [RoundsTo]
      refine ⟨by linarith, fun b _ hb => ?_⟩
      have := hmax b (by linarith)
      linarith

end

end

end Sys2Proof.Machine
end

section
/-! `roundPos` delivers the result and the flags that R304 gives for the exact value that its significand and exponent
stand for. -/

namespace Sys2Proof.Machine

theorem goesUp_congr {mode : RoundingMode} {neg : Bool} {m m' : ℕ} {lo hi x : ℝ} (h : m % 2 = m' % 2) :
    GoesUp mode neg m lo hi x ↔ GoesUp mode neg m' lo hi x := by
  cases mode <;> simp only [GoesUp, h]

section
variable {F : FloatFormat} {mode : RoundingMode} {neg : Bool} {x : ℝ} {n : ℕ}

theorem magGrid_mul_add {k : ℕ} (hn : n ≤ 2 ^ (F.fracBits + 1)) (hk : k = 0 ∨ 2 ^ F.fracBits ≤ n) :
    magGrid F (k * 2 ^ F.fracBits + n) = multiples ((2 : ℝ) ^ (F.qmin + k)) n := by
  rw [magGrid, magValue_mul_add F hn hk]
  push_cast
  rfl

/-- Rounding to the multiples of the unit of `x`'s own exponent, the subnormal one if `k` is 0, is rounding on the grid
of magnitudes. -/
theorem RoundsOn.magGrid_of_multiples {k : ℕ} (hF : IsFormat F)
    (h : RoundsOn (multiples ((2 : ℝ) ^ (F.qmin + k))) mode neg x n)
    (hhigh : x < multiples ((2 : ℝ) ^ (F.qmin + k)) (2 ^ (F.fracBits + 1)))
    (hlow : k = 0 ∨ multiples ((2 : ℝ) ^ (F.qmin + k)) (2 ^ F.fracBits) ≤ x) :
    RoundsOn (magGrid F) mode neg x (k * 2 ^ F.fracBits + n) ∧
      magGrid F (k * 2 ^ F.fracBits + n) = multiples ((2 : ℝ) ^ (F.qmin + k)) n := by
  have hmono : StrictMono (multiples ((2 : ℝ) ^ (F.qmin + k))) := multiples_strictMono (by positivity)
  obtain ⟨m, hlo, hhi, hcases⟩ := h
  have hm : m < 2 ^ (F.fracBits + 1) := hmono.lt_iff_lt.1 (hlo.trans_lt hhigh)
  have hk : k = 0 ∨ 2 ^ F.fracBits ≤ m :=
    hlow.imp_right fun hx => Nat.le_of_lt_succ (hmono.lt_iff_lt.1 (hx.trans_lt hhi))
  have hk' : k = 0 ∨ 2 ^ F.fracBits ≤ m + 1 := hk.imp_right Nat.le_succ_of_le
  have hgrid := magGrid_mul_add hm.le hk
  have hgrid' := magGrid_mul_add hm hk'
  have heven : (k * 2 ^ F.fracBits + m) % 2 = m % 2 := by
    have hdvd : 2 ∣ k * 2 ^ F.fracBits := Dvd.dvd.mul_left (dvd_pow_self 2 (by have := hF.one_le_fracBits; omega)) k
    omega
  refine ⟨⟨k * 2 ^ F.fracBits + m, by rwa [hgrid], by rwa [add_assoc, hgrid'], ?_⟩, ?_⟩
  · rw [add_assoc, hgrid, hgrid', goesUp_congr heven, Nat.add_right_inj, Nat.add_right_inj]
    exact hcases
  · rcases hcases with ⟨rfl, -⟩ | ⟨rfl, -⟩
    · exact hgrid
    · exact hgrid'

/-- Rounding on the grid of magnitudes overflows when it reaches infinity. -/
theorem overflows_iff (hF : IsFormat F) (h : RoundsOn (magGrid F) mode neg x n) (hx : 0 < x) :
    Overflows F mode (withSign neg x) ↔ F.infMag ≤ n := by
  have heven := infMag_mod_two hF
  have hpos : F.infMag - 1 + 1 = F.infMag := by
    rcases hF with rfl | rfl <;> rfl
  have hreaches := h.le_iff (magGrid_strictMono F) (k := F.infMag - 1) (by omega)
  rw [hpos, magGrid, magGrid, magValue_infMag hF, magValue_infMag_pred hF] at hreaches
  rw [hreaches]
  have hhalf : ((topOf F - topUnit F : ℚ) : ℝ) + (topOf F : ℝ) ≤ 2 * x ↔ ((topOf F - topUnit F / 2 : ℚ) : ℝ) ≤ x := by
    push_cast
    constructor <;> intro <;> linarith
  have habs : |withSign neg x| = x := by rw [abs_withSign, abs_of_pos hx]
  cases mode <;> simp only [Overflows, Reaches, habs, hhalf, withSign_lt_zero_iff neg hx, zero_lt_withSign_iff neg hx]

end

/-! ### The exact value, and where its leading bit is -/

/-- The exponent of the unit in the last place that the magnitude `sig * 2^exp` has as a normal number. -/
def unitExp (F : FloatFormat) (sig : ℕ) (exp : ℤ) : ℤ := exp + sig.log2 - F.fracBits

/-- `sig * 2^exp` stands for `x`: no comparison with a half unit in a last place, of this magnitude or a higher one,
tells the two apart. -/
def StandsFor (F : FloatFormat) (sig : ℕ) (exp : ℤ) (x : ℝ) : Prop :=
  SameSide ((2 : ℝ) ^ (unitExp F sig exp - 1)) x (sig * (2 : ℝ) ^ exp)

theorem two_mul_half (q : ℤ) : 2 * (2 : ℝ) ^ (q - 1) = (2 : ℝ) ^ q := by
  rw [← zpow_one_add₀ two_ne_zero, add_sub_cancel]

theorem multiples_two_pow (q : ℤ) (k : ℕ) : multiples ((2 : ℝ) ^ q) (2 ^ k) = (2 : ℝ) ^ (q + k) := by
  rw [multiples, zpow_add₀ two_ne_zero, zpow_natCast, mul_comm]
  norm_cast

theorem multiples_two_pow_pred (q : ℤ) (k : ℕ) :
    multiples ((2 : ℝ) ^ q) (2 ^ k - 1) = (2 : ℝ) ^ (q + k) - (2 : ℝ) ^ q := by
  rw [← multiples_two_pow, multiples, multiples, Nat.cast_sub Nat.one_le_two_pow, Nat.cast_one]
  ring

theorem SameSide.two_zpow_mono {p q : ℤ} {x y : ℝ} (h : SameSide ((2 : ℝ) ^ p) x y) (hpq : p ≤ q) :
    SameSide ((2 : ℝ) ^ q) x y := by
  have hpow : (2 : ℝ) ^ q = (2 ^ (q - p).toNat : ℕ) * (2 : ℝ) ^ p := by
    rw [Nat.cast_pow, Nat.cast_ofNat, ← zpow_natCast, ← zpow_add₀ two_ne_zero]
    congr 1
    omega
  rw [hpow]
  exact h.mul _

section
variable {F : FloatFormat} {sig : ℕ} {exp q : ℤ} {x : ℝ} (hx : StandsFor F sig exp x)
include hx

theorem StandsFor.sameSide (hq : unitExp F sig exp ≤ q) : SameSide ((2 : ℝ) ^ (q - 1)) x (sig * (2 : ℝ) ^ exp) :=
  SameSide.two_zpow_mono hx (Int.sub_le_sub_right hq 1)

theorem StandsFor.roundsOn (hq : unitExp F sig exp ≤ q) (mode : RoundingMode) (neg : Bool) :
    RoundsOn (multiples ((2 : ℝ) ^ q)) mode neg x (roundShift mode neg sig (exp - q)).1 := by
  have hround := roundShift_roundsOn mode neg sig exp q
  rw [← two_mul_half] at hround ⊢
  exact (hx.sameSide hq).roundsOn hround

theorem StandsFor.sameSide_unit (hq : unitExp F sig exp ≤ q) : SameSide ((2 : ℝ) ^ q) x (sig * (2 : ℝ) ^ exp) :=
  two_mul_half q ▸ (hx.sameSide hq).mul 2

theorem StandsFor.inexact_iff (hq : unitExp F sig exp ≤ q) (mode : RoundingMode) (neg : Bool) :
    (roundShift mode neg sig (exp - q)).2 = true ↔ ¬ ∃ k, multiples ((2 : ℝ) ^ q) k = x := by
  rw [roundShift_inexact_iff, not_exists]
  simp only [(hx.sameSide_unit hq).eq_iff, ne_eq]

/-- `x` has the leading bit that its significand says. -/
theorem StandsFor.binade (hsig : sig ≠ 0) : (2 : ℝ) ^ (unitExp F sig exp + F.fracBits) ≤ x ∧
    x < (2 : ℝ) ^ (unitExp F sig exp + F.fracBits + 1) := by
  have hexp : (0 : ℝ) < (2 : ℝ) ^ exp := by positivity
  have hlead : unitExp F sig exp + F.fracBits = exp + sig.log2 := sub_add_cancel _ _
  have hlow : ((2 ^ sig.log2 : ℕ) : ℝ) ≤ sig := Nat.cast_le.2 (Nat.log2_self_le hsig)
  have hhigh : (sig : ℝ) < (2 ^ (sig.log2 + 1) : ℕ) := Nat.cast_lt.2 Nat.lt_log2_self
  have hsame := hx.sameSide_unit le_rfl
  rw [add_assoc, ← Nat.cast_add_one, ← multiples_two_pow, ← multiples_two_pow, hsame.le_iff, (hsame _).2,
    multiples_two_pow, multiples_two_pow, Nat.cast_add_one, ← add_assoc, hlead, add_assoc, ← Nat.cast_add_one,
    ← multiples_two_pow, ← multiples_two_pow]
  exact ⟨mul_le_mul_of_nonneg_right hlow hexp.le, mul_lt_mul_of_pos_right hhigh hexp⟩

end

/-! ### Tininess after rounding -/

section
variable {F : FloatFormat} {mode : RoundingMode} {neg : Bool} {sig : ℕ} {exp : ℤ} {x : ℝ}

theorem tiny_iff_not_reaches (hx : 0 < x) : Tiny F mode (withSign neg x) ↔
    ¬ Reaches mode neg ((bottomOf F - bottomUnit F : ℚ) : ℝ) (bottomOf F : ℝ) x := by
  have habs : |withSign neg x| = x := by rw [abs_withSign, abs_of_pos hx]
  have hhalf : x < ((bottomOf F - bottomUnit F / 2 : ℚ) : ℝ) ↔
      ¬ ((bottomOf F - bottomUnit F : ℚ) : ℝ) + (bottomOf F : ℝ) ≤ 2 * x := by
    rw [not_le]
    push_cast
    constructor <;> intro <;> linarith
  cases mode <;> simp only [Tiny, Reaches, habs, hhalf, withSign_lt_zero_iff neg hx, zero_lt_withSign_iff neg hx,
    not_or, not_and, not_le, not_lt]

theorem bottomOf_cast (F : FloatFormat) : (bottomOf F : ℝ) = (2 : ℝ) ^ F.emin := by
  rw [bottomOf, Rat.cast_zpow, Rat.cast_ofNat]

theorem bottomUnit_cast (F : FloatFormat) : (bottomUnit F : ℝ) = (2 : ℝ) ^ (F.emin - 1 - F.fracBits) := by
  rw [bottomUnit, Rat.cast_zpow, Rat.cast_ofNat]

theorem FloatFormat.qmin_eq (F : FloatFormat) : F.qmin = F.emin - F.fracBits := rfl

/-- From the least normal number on nothing is tiny, and the test answers so. -/
theorem tinyAfterRounding_of_qmin_le (hq : F.qmin ≤ unitExp F sig exp) :
    tinyAfterRounding F mode neg sig exp = false := by
  have hq' : ¬ exp + sig.log2 - F.fracBits < F.qmin := not_lt.2 hq
  simp only [tinyAfterRounding, hq', decide_false, Bool.false_and]

/-- Below the least normal number the test rounds to the unit `x` would have with no least exponent: `x` is tiny when
it does not reach the least normal number there. -/
theorem tinyAfterRounding_iff_not_reaches (hstands : StandsFor F sig exp x) (hq : unitExp F sig exp < F.qmin) :
    tinyAfterRounding F mode neg sig exp = true ↔
      ¬ Reaches mode neg ((bottomOf F : ℝ) - (2 : ℝ) ^ unitExp F sig exp) (bottomOf F : ℝ) x := by
  have hqmin := F.qmin_eq
  obtain ⟨d, hd⟩ : ∃ d : ℕ, unitExp F sig exp + d = F.emin := ⟨(F.emin - unitExp F sig exp).toNat, by omega⟩
  have hcount : (F.emin - unitExp F sig exp).toNat = d := by omega
  have hodd : (2 ^ d - 1) % 2 = 1 := by
    have hdvd : 2 ∣ 2 ^ d := dvd_pow_self 2 (by omega)
    have hpos : 0 < 2 ^ d := by positivity
    omega
  have hreaches := (hstands.roundsOn le_rfl mode neg).le_iff (multiples_strictMono (by positivity)) hodd
  rw [Nat.sub_add_cancel Nat.one_le_two_pow, multiples_two_pow, multiples_two_pow_pred, hd, ← bottomOf_cast] at hreaches
  rw [← hreaches, not_le, ← hcount]
  simp only [tinyAfterRounding, Bool.and_eq_true, decide_eq_true_eq]
  exact and_iff_right hq

/-- Only in the last binade below it can a magnitude reach the least normal number. -/
theorem not_reaches_bottomOf {u : ℝ} (hhalf : x ≤ (2 : ℝ) ^ (F.emin - 1)) (hpos : 0 < u)
    (hu : u ≤ (2 : ℝ) ^ (F.emin - 1)) : ¬ Reaches mode neg ((bottomOf F : ℝ) - u) (bottomOf F : ℝ) x := by
  have hbottom : (bottomOf F : ℝ) = 2 * (2 : ℝ) ^ (F.emin - 1) := by rw [two_mul_half, bottomOf_cast]
  exact not_reaches_of_le (by linarith) (by linarith)

/-- The model's test for tininess is that of the statement. -/
theorem tinyAfterRounding_iff (hsig : sig ≠ 0) (hstands : StandsFor F sig exp x) (hx : 0 < x) :
    tinyAfterRounding F mode neg sig exp = true ↔ Tiny F mode (withSign neg x) := by
  obtain ⟨hlow, hhigh⟩ := hstands.binade hsig
  have hqmin := F.qmin_eq
  rw [tiny_iff_not_reaches hx, Rat.cast_sub]
  rcases lt_or_ge (unitExp F sig exp) F.qmin with hq | hq
  · rw [tinyAfterRounding_iff_not_reaches hstands hq, bottomUnit_cast]
    rcases eq_or_ne (unitExp F sig exp) (F.emin - 1 - F.fracBits) with hlast | hlast
    · rw [hlast]
    · have hhalf : x ≤ (2 : ℝ) ^ (F.emin - 1) := hhigh.le.trans (zpow_le_zpow_right₀ one_le_two (by omega))
      have hunit {p : ℤ} (hp : p ≤ F.emin - 1) : (2 : ℝ) ^ p ≤ (2 : ℝ) ^ (F.emin - 1) :=
        zpow_le_zpow_right₀ one_le_two hp
      exact not_congr (iff_of_false (not_reaches_bottomOf hhalf (by positivity) (hunit (by omega)))
        (not_reaches_bottomOf hhalf (by positivity) (hunit (by omega))))
  · have hreaches : (bottomOf F : ℝ) ≤ x := by
      rw [bottomOf_cast]
      exact (zpow_le_zpow_right₀ one_le_two (by omega)).trans hlow
    have hbelow : (bottomOf F : ℝ) - bottomUnit F < bottomOf F := by
      rw [bottomUnit_cast]
      exact sub_lt_self _ (by positivity)
    exact iff_of_false (by simp [tinyAfterRounding_of_qmin_le hq]) (not_not.2 (reaches_of_le hbelow hreaches))

/-! ### The result -/

theorem overflowBits_eq (F : FloatFormat) (mode : RoundingMode) (neg : Bool) :
    overflowBits F mode neg = pack F neg (if goesAway mode neg then F.infMag else F.infMag - 1) := by
  cases mode <;> rfl

theorem signBit_overflowBits : signBit F (overflowBits F mode neg) = neg := by
  rw [overflowBits_eq]
  split
  · exact signBit_pack (lt_two_pow_of_le_infMag le_rfl)
  · exact signBit_pack (lt_two_pow_of_le_infMag (Nat.sub_le _ _))

/-- The overflowed result is an infinity or the largest finite number. -/
theorem overflowBits_cases (hF : IsFormat F) :
    (goesAway mode neg = true → isInfinite F (overflowBits F mode neg) = true) ∧
      (goesAway mode neg = false → isFinite F (overflowBits F mode neg) = true ∧
        |valueOf F (overflowBits F mode neg)| = topOf F - topUnit F) := by
  have hpos : F.infMag - 1 < F.infMag := by rcases hF with rfl | rfl <;> decide
  refine ⟨fun h => ?_, fun h => ?_⟩ <;> rw [overflowBits_eq, h]
  · exact isInfinite_pack_infMag
  · refine ⟨isFinite_pack hpos, ?_⟩
    rw [← magValue_infMag_pred hF, ← Rat.cast_inj (α := ℝ), Rat.cast_abs]
    exact (abs_valueOf _).trans (congrArg (magGrid F) (magnitude_pack hpos.le))

/-- What is delivered for a magnitude picked on the grid is the rounded result, if its flags are. -/
theorem rounded_of_roundsOn (hF : IsFormat F) {n : ℕ} (h : RoundsOn (magGrid F) mode neg x n) (hx : 0 < x)
    {tiny inexact : Bool} (hinexact : inexact = true ↔ magGrid F n ≠ x)
    (htiny : tiny = true ↔ Tiny F mode (withSign neg x)) :
    Rounded F mode (withSign neg x)
      (if F.infMag ≤ n then (overflowBits F mode neg, { ofl := true, nx := true })
        else (pack F neg n, { ufl := tiny && inexact, nx := inexact })) := by
  have hoverflows := overflows_iff hF h hx
  split_ifs with hn
  · have hsign : signBit F (overflowBits F mode neg) = neg := signBit_overflowBits
    refine ⟨by rw [hsign, withSign_lt_zero_iff neg hx], fun _ => ⟨rfl, ?_⟩, fun h => absurd (hoverflows.2 hn) h⟩
    rw [hsign]
    exact overflowBits_cases hF
  · have hn' : n < F.infMag := not_le.1 hn
    have hsign : signBit F (pack F neg n) = neg := signBit_pack (lt_two_pow_of_le_infMag hn'.le)
    have hexact : (valueOf F (pack F neg n) : ℝ) ≠ withSign neg x ↔ inexact = true := by
      rw [hinexact, valueOf_pack_eq_withSign hn', ne_eq, withSign_inj]
    refine ⟨by rw [hsign, withSign_lt_zero_iff neg hx], fun h => absurd (hoverflows.1 h) hn, fun _ => ?_⟩
    refine ⟨isFinite_pack hn', roundsTo_pack hF h hx hn', rfl, rfl, rfl, hexact.symm, ?_⟩
    rw [hexact, ← htiny, Bool.and_eq_true, and_comm]

/-- The arithmetic of R304: `roundPos` delivers the exact value that `±sig * 2^exp` stands for, rounded once. -/
theorem rounded_roundPos (hF : IsFormat F) (hsig : sig ≠ 0) (hstands : StandsFor F sig exp x) :
    Rounded F mode (withSign neg x) (roundPos F mode neg sig exp) := by
  obtain ⟨hlow, hhigh⟩ := hstands.binade hsig
  have hx : 0 < x := lt_of_lt_of_le (by positivity) hlow
  obtain ⟨k, hk⟩ : ∃ k : ℕ, max F.qmin (unitExp F sig exp) = F.qmin + k :=
    ⟨(max F.qmin (unitExp F sig exp) - F.qmin).toNat, by omega⟩
  have hcount : (max F.qmin (unitExp F sig exp) - F.qmin).toNat = k := by omega
  have hunit : unitExp F sig exp ≤ F.qmin + k := by omega
  have hround := hstands.roundsOn hunit mode neg
  obtain ⟨hgrid, hvalue⟩ := hround.magGrid_of_multiples hF
    (by
      rw [multiples_two_pow]
      exact hhigh.trans_le (zpow_le_zpow_right₀ one_le_two (by push_cast; omega)))
    (by
      rw [multiples_two_pow, or_iff_not_imp_left]
      exact fun hne => (zpow_le_zpow_right₀ one_le_two (by omega)).trans hlow)
  have hinexact : (roundShift mode neg sig (exp - (F.qmin + k))).2 = true ↔
      magGrid F (k * 2 ^ F.fracBits + (roundShift mode neg sig (exp - (F.qmin + k))).1) ≠ x := by
    rw [hstands.inexact_iff hunit, hvalue, ne_eq, hround.eq_iff (multiples_strictMono (by positivity))]
  have hrounded := rounded_of_roundsOn hF hgrid hx hinexact (tinyAfterRounding_iff hsig hstands hx)
  rw [← hk] at hrounded
  rw [← hcount] at hrounded
  exact hrounded

end

end Sys2Proof.Machine
end

section
/-! Sums, products, quotients, roots and conversions from integers deliver the exact real value, rounded once
(`44_f_single.md` R304, R307). -/

namespace Sys2Proof.Machine

section
variable {F : FloatFormat} (hF : IsFormat F) {mode : RoundingMode} {neg neg' : Bool} {sig sig' : ℕ} {exp exp' : ℤ}

/-! ### Exact values -/

theorem finValue_cast (neg : Bool) (sig : ℕ) (exp : ℤ) :
    (finValue neg sig exp : ℝ) = withSign neg (sig * (2 : ℝ) ^ exp) := by
  simp only [finValue, withSign, Rat.cast_mul, Rat.cast_natCast, Rat.cast_zpow, Rat.cast_ofNat]

/-- An integer in units of `2^exp`, by its sign and its magnitude. -/
theorem finValue_natAbs (v exp : ℤ) : finValue (decide (v < 0)) v.natAbs exp = v * (2 : ℚ) ^ exp := by
  have hsigned : signedSig (decide (v < 0)) v.natAbs = v := by
    rw [signedSig, Int.natCast_natAbs]
    by_cases hv : v < 0
    · simp [hv, abs_of_neg hv]
    · simp [hv, abs_of_nonneg (not_lt.1 hv)]
  rw [finValue, ← mul_assoc, ← signedSig_cast, hsigned]

include hF

theorem rounded_roundFin (h : finValue neg sig exp ≠ 0) :
    Rounded F mode (finValue neg sig exp : ℝ) (roundFin F mode neg sig exp) := by
  have hsig : sig ≠ 0 := mt (finValue_eq_zero_iff neg sig exp).2 h
  rw [finValue_cast, roundFin, if_neg hsig]
  exact rounded_roundPos hF hsig (SameSide.refl _ _)

theorem rounded_roundInt {zeroNeg : Bool} {v : ℤ} (hv : v ≠ 0) :
    Rounded F mode ((v * (2 : ℚ) ^ exp : ℚ) : ℝ) (roundInt F mode zeroNeg v exp) := by
  rw [roundInt, if_neg hv, ← finValue_natAbs]
  exact rounded_roundFin hF (mt (finValue_eq_zero_iff _ _ _).1 (Int.natAbs_ne_zero.2 hv))

theorem rounded_addFin (h : finValue neg sig exp + finValue neg' sig' exp' ≠ 0) :
    Rounded F mode ((finValue neg sig exp + finValue neg' sig' exp' : ℚ) : ℝ)
      (addFin F mode neg sig exp neg' sig' exp') := by
  rw [← scaled_add_mul_zpow] at h ⊢
  exact rounded_roundInt hF fun hzero => h (by rw [hzero, Int.cast_zero, zero_mul])

end

/-! ### Sums and products (R312 to R318) -/

section
variable {F : FloatFormat} (hF : IsFormat F) {mode : RoundingMode} {a b c : BitVec F.width} (ha : isFinite F a = true)
  (hb : isFinite F b = true)
include hF ha hb

theorem rounded_fAdd (h : valueOf F a + valueOf F b ≠ 0) :
    Rounded F mode ((valueOf F a + valueOf F b : ℚ) : ℝ) (fAdd F mode a b) := by
  obtain ⟨sig, exp, ha', hvalue, -⟩ := exists_unpack_eq_fin ha
  obtain ⟨sig', exp', hb', hvalue', -⟩ := exists_unpack_eq_fin hb
  rw [hvalue, hvalue'] at h ⊢
  rw [fAdd, ha', hb']
  exact rounded_addFin hF h

theorem rounded_fSub (h : valueOf F a - valueOf F b ≠ 0) :
    Rounded F mode ((valueOf F a - valueOf F b : ℚ) : ℝ) (fSub F mode a b) := by
  obtain ⟨sig, exp, ha', hvalue, -⟩ := exists_unpack_eq_fin ha
  obtain ⟨sig', exp', hb', hvalue', -⟩ := exists_unpack_eq_fin hb
  rw [hvalue, hvalue', sub_eq_add_neg, ← finValue_not] at h ⊢
  rw [fSub, ha', hb']
  exact rounded_addFin hF h

theorem rounded_fMul (h : valueOf F a * valueOf F b ≠ 0) :
    Rounded F mode ((valueOf F a * valueOf F b : ℚ) : ℝ) (fMul F mode a b) := by
  obtain ⟨sig, exp, hproduct, hvalue⟩ := exists_mulExact_eq_fin ha hb
  rw [hvalue] at h ⊢
  rw [fMul, hproduct]
  exact rounded_roundFin hF h

theorem rounded_fMulAdd {p q : Bool} (hc : isFinite F c = true)
    (h : signOf p * (valueOf F a * valueOf F b) + signOf q * valueOf F c ≠ 0) :
    Rounded F mode ((signOf p * (valueOf F a * valueOf F b) + signOf q * valueOf F c : ℚ) : ℝ)
      (fMulAdd F mode p q a b c) := by
  obtain ⟨sig, exp, hproduct, hvalue⟩ := exists_mulExact_eq_fin ha hb
  obtain ⟨sig', exp', hc', hvalue', -⟩ := exists_unpack_eq_fin hc
  rw [hvalue, hvalue', ← finValue_xor, ← finValue_xor] at h ⊢
  rw [fMulAdd_of_mulExact hproduct, hc', negateIf_fin, negateIf_fin]
  exact rounded_addFin hF h

end

end Sys2Proof.Machine
end

section
/-! The statements about rounded results. -/

namespace Sys2Proof.Proofs

open Sys2Proof.Machine

/-- Settles O57: each operation computes the exact value over integers and rounds it once. -/
theorem sumsProductsRoundedOnce : Obligations.SumsProductsRoundedOnce :=
  fun _ _ _ _ _ hF ha hb => ⟨rounded_fAdd hF ha hb, rounded_fSub hF ha hb, rounded_fMul hF ha hb,
    fun hc _ _ => rounded_fMulAdd hF ha hb hc⟩

end Sys2Proof.Proofs
end

section
/-! Quotients and square roots: the cut significands with their jammed last bits stand for the exact real values, which
need not be rational (`44_f_single.md` R304, R319, R325). -/

namespace Sys2Proof.Machine

/-! ### Jamming -/

/-- An integer cut from `y`, with its last bit set if something was cut off, is on the same side of every even number
as `2 * y`. -/
theorem sameSide_jam {y : ℝ} {n : ℕ} {inexact : Bool} (hlo : n ≤ y) (hhi : y < n + 1)
    (hinexact : inexact = true ↔ (n : ℝ) ≠ y) : SameSide 2 (2 * y) (jam n inexact : ℕ) := by
  intro k
  have hpoint : multiples 2 k = ((2 * k : ℕ) : ℝ) := by rw [multiples]; push_cast; ring
  have hlt : ((2 * k : ℕ) : ℝ) < 2 * y ↔ (k : ℝ) < y := by push_cast; constructor <;> intro <;> linarith
  have hgt : 2 * y < ((2 * k : ℕ) : ℝ) ↔ y < k := by push_cast; constructor <;> intro <;> linarith
  rw [hpoint, hlt, hgt, Nat.cast_lt, Nat.cast_lt, jam]
  have hk : (k : ℝ) < y ↔ k < n ∨ (k = n ∧ inexact = true) := by
    rw [hinexact]
    refine ⟨fun h => ?_, ?_⟩
    · have hle : k < n + 1 := by exact_mod_cast h.trans hhi
      rcases (Nat.le_of_lt_succ hle).lt_or_eq with hkn | rfl
      · exact .inl hkn
      · exact .inr ⟨rfl, h.ne⟩
    · rintro (hkn | ⟨rfl, hne⟩)
      · exact (Nat.cast_lt.2 hkn).trans_le hlo
      · exact lt_of_le_of_ne hlo hne
  have hk' : y < k ↔ n < k :=
    ⟨fun h => Nat.cast_lt.1 (hlo.trans_lt h), fun h => hhi.trans_le (by exact_mod_cast h)⟩
  rw [hk, hk']
  cases inexact
  · simp only [Bool.false_eq_true, and_false, or_false, if_false]
    omega
  · simp only [and_true, if_true]
    omega

theorem SameSide.mul_right {h x y u : ℝ} (hxy : SameSide h x y) (hu : 0 < u) : SameSide (h * u) (x * u) (y * u) := by
  intro k
  have hpoint : multiples (h * u) k = multiples h k * u := (mul_assoc _ _ _).symm
  rw [hpoint, mul_lt_mul_iff_left₀ hu, mul_lt_mul_iff_left₀ hu, mul_lt_mul_iff_left₀ hu, mul_lt_mul_iff_left₀ hu]
  exact hxy k

theorem jam_ne_zero {n : ℕ} {inexact : Bool} (hn : n ≠ 0) : jam n inexact ≠ 0 := by
  unfold jam
  omega

/-- With two places more than a result keeps, a jammed significand stands for what it was cut from. -/
theorem standsFor_jam {F : FloatFormat} {y : ℝ} {n : ℕ} {inexact : Bool} (hlo : n ≤ y) (hhi : y < n + 1)
    (hinexact : inexact = true ↔ (n : ℝ) ≠ y) (hlarge : 2 ^ (F.fracBits + 1) ≤ n) (exp : ℤ) :
    StandsFor F (jam n inexact) (exp - 1) (y * (2 : ℝ) ^ exp) := by
  have hn : n ≠ 0 := (lt_of_lt_of_le (by positivity) hlarge).ne'
  have hlog : F.fracBits + 2 ≤ (jam n inexact).log2 := by
    rw [Nat.le_log2 (jam_ne_zero hn), pow_succ, jam]
    omega
  have hscale := (sameSide_jam hlo hhi hinexact).mul_right (u := (2 : ℝ) ^ (exp - 1)) (by positivity)
  rw [two_mul_half, mul_comm 2 y, mul_assoc, two_mul_half] at hscale
  exact hscale.two_zpow_mono (by unfold unitExp; omega)

/-! ### Quotients -/

section
variable {F : FloatFormat} {sig sig' : ℕ} {exp exp' : ℤ} (hsig : sig ≠ 0)
include hsig

/-- The integer quotient has two places more than a result keeps, and another to spare. -/
theorem two_pow_le_quotient (hsig' : sig' ≠ 0) :
    2 ^ (F.fracBits + 1) ≤ sig * 2 ^ (F.fracBits + 4 + sig'.log2) / sig' := by
  rw [Nat.le_div_iff_mul_le (Nat.pos_of_ne_zero hsig')]
  calc 2 ^ (F.fracBits + 1) * sig' ≤ 2 ^ (F.fracBits + 1) * 2 ^ (sig'.log2 + 1) :=
        Nat.mul_le_mul_left _ Nat.lt_log2_self.le
    _ = 2 ^ (F.fracBits + sig'.log2 + 2) := by rw [← pow_add]; congr 1; omega
    _ ≤ 2 ^ (F.fracBits + 4 + sig'.log2) := Nat.pow_le_pow_right (by decide) (by omega)
    _ ≤ sig * 2 ^ (F.fracBits + 4 + sig'.log2) := Nat.le_mul_of_pos_left _ (Nat.pos_of_ne_zero hsig)

theorem divSig_ne_zero (hsig' : sig' ≠ 0) : (divSig F sig exp sig' exp').1 ≠ 0 :=
  jam_ne_zero ((Nat.two_pow_pos _).trans_le (two_pow_le_quotient hsig hsig')).ne'

/-- The jammed quotient stands for the exact one (R319). -/
theorem standsFor_divSig (hsig' : sig' ≠ 0) :
    StandsFor F (divSig F sig exp sig' exp').1 (divSig F sig exp sig' exp').2
      ((sig * (2 : ℝ) ^ exp) / (sig' * (2 : ℝ) ^ exp')) := by
  have hpos : 0 < sig' := Nat.pos_of_ne_zero hsig'
  have hpos' : (0 : ℝ) < sig' := Nat.cast_pos.2 hpos
  have hlarge := two_pow_le_quotient (F := F) hsig hsig'
  have hvalue : (sig * (2 : ℝ) ^ exp) / (sig' * (2 : ℝ) ^ exp') =
      (sig * 2 ^ (F.fracBits + 4 + sig'.log2) : ℕ) / sig' *
        (2 : ℝ) ^ (exp - exp' - (F.fracBits + 4 + sig'.log2 : ℕ)) := by
    rw [zpow_sub₀ two_ne_zero, zpow_sub₀ two_ne_zero, zpow_natCast, Nat.cast_mul, Nat.cast_pow, Nat.cast_ofNat]
    field_simp
  rw [hvalue]
  set n := sig * 2 ^ (F.fracBits + 4 + sig'.log2) with hn
  have hdiv := Nat.div_add_mod' n sig'
  have hhi : (n / sig' : ℝ) < ((n / sig' : ℕ) : ℝ) + 1 := by
    rw [div_lt_iff₀ hpos']
    exact_mod_cast Nat.lt_mul_of_div_lt (Nat.lt_succ_self _) hpos
  have hinexact : (n % sig' != 0) = true ↔ ((n / sig' : ℕ) : ℝ) ≠ n / sig' := by
    rw [bne_iff_ne, not_iff_not, eq_div_iff hpos'.ne', ← Nat.cast_mul, Nat.cast_inj]
    omega
  exact standsFor_jam Nat.cast_div_le hhi hinexact hlarge _

end

/-! ### Square roots -/

section
variable {F : FloatFormat} {sig : ℕ} {exp : ℤ} (hsig : sig ≠ 0)
include hsig

/-- The integer root has two places more than a result keeps, and some to spare. -/
theorem two_pow_le_isqrt (r : ℕ) : 2 ^ (F.fracBits + 1) ≤ isqrt (sig * 2 ^ (2 * (F.fracBits + 4) + r)) := by
  obtain ⟨-, hsq⟩ := isqrt_spec (sig * 2 ^ (2 * (F.fracBits + 4) + r))
  by_contra! hsmall
  have hbound : 2 ^ (2 * (F.fracBits + 1)) ≤ sig * 2 ^ (2 * (F.fracBits + 4) + r) :=
    (Nat.pow_le_pow_right (by decide) (by omega)).trans (Nat.le_mul_of_pos_left _ (Nat.pos_of_ne_zero hsig))
  rw [two_mul, pow_add] at hbound
  exact absurd (Nat.mul_le_mul hsmall hsmall) (hsq.trans_le' hbound).not_ge

theorem sqrtSig_ne_zero : (sqrtSig F sig exp).1 ≠ 0 :=
  jam_ne_zero ((Nat.two_pow_pos _).trans_le (two_pow_le_isqrt hsig _)).ne'

/-- The jammed root stands for the exact one, rational or not (R325). -/
theorem standsFor_sqrtSig :
    StandsFor F (sqrtSig F sig exp).1 (sqrtSig F sig exp).2 (Real.sqrt (sig * (2 : ℝ) ^ exp)) := by
  have hlarge := two_pow_le_isqrt (F := F) hsig (exp % 2).toNat
  set k := 2 * (F.fracBits + 4) + (exp % 2).toNat with hk
  have hvalue : Real.sqrt (sig * (2 : ℝ) ^ exp) = Real.sqrt (sig * 2 ^ k : ℕ) * (2 : ℝ) ^ ((exp - k) / 2) := by
    have hexp : exp = k + ((exp - k) / 2 + (exp - k) / 2) := by omega
    have hsquare : (sig * (2 : ℝ) ^ exp) =
        (sig * 2 ^ k : ℕ) * ((2 : ℝ) ^ ((exp - k) / 2) * (2 : ℝ) ^ ((exp - k) / 2)) := by
      conv_lhs => rw [hexp, zpow_add₀ two_ne_zero, zpow_add₀ two_ne_zero, zpow_natCast]
      push_cast
      ring
    rw [hsquare, Real.sqrt_mul (Nat.cast_nonneg _), Real.sqrt_mul_self (by positivity)]
  rw [hvalue]
  set n := sig * 2 ^ k with hn
  obtain ⟨hsq, hsq'⟩ := isqrt_spec n
  have hlo : (isqrt n : ℝ) ≤ Real.sqrt n := Real.le_sqrt_of_sq_le (by rw [sq]; exact_mod_cast hsq)
  have hhi : Real.sqrt n < isqrt n + 1 := by
    rw [Real.sqrt_lt' (by positivity), sq]
    exact_mod_cast hsq'
  have hinexact : (isqrt n * isqrt n != n) = true ↔ (isqrt n : ℝ) ≠ Real.sqrt n := by
    rw [bne_iff_ne, not_iff_not, eq_comm (b := Real.sqrt n),
      Real.sqrt_eq_iff_mul_self_eq (by positivity) (by positivity), ← Nat.cast_mul, Nat.cast_inj, eq_comm]
  exact standsFor_jam hlo hhi hinexact hlarge _

end

/-! ### The operations -/

theorem withSign_div (neg neg' : Bool) (x y : ℝ) :
    withSign neg x / withSign neg' y = withSign (neg ^^ neg') (x / y) := by
  cases neg <;> cases neg' <;> simp [withSign_true, withSign_false, neg_div, div_neg]

section
variable {F : FloatFormat} (hF : IsFormat F) {mode : RoundingMode} {a b : BitVec F.width} (ha : isFinite F a = true)
include hF ha

theorem rounded_fDiv (hb : isFinite F b = true) (hne : valueOf F a ≠ 0) (hne' : valueOf F b ≠ 0) :
    Rounded F mode ((valueOf F a / valueOf F b : ℚ) : ℝ) (fDiv F mode a b) := by
  obtain ⟨sig, exp, ha', hvalue, hzero⟩ := exists_unpack_eq_fin ha
  obtain ⟨sig', exp', hb', hvalue', hzero'⟩ := exists_unpack_eq_fin hb
  have hsig := mt hzero.1 hne
  have hsig' := mt hzero'.1 hne'
  have hjam := divSig_ne_zero (F := F) (exp := exp) (exp' := exp') hsig hsig'
  rw [hvalue, hvalue', Rat.cast_div, finValue_cast, finValue_cast, withSign_div, fDiv, ha', hb', divDatum,
    if_neg hsig', if_neg hsig, roundFin, if_neg hjam]
  exact rounded_roundPos hF hjam (standsFor_divSig hsig hsig')

theorem rounded_fSqrt (hpos : 0 < valueOf F a) : Rounded F mode (Real.sqrt (valueOf F a : ℝ)) (fSqrt F mode a) := by
  obtain ⟨sig, exp, ha', hvalue, hzero⟩ := exists_unpack_eq_fin ha
  have hsig := mt hzero.1 hpos.ne'
  have hjam := sqrtSig_ne_zero (F := F) (exp := exp) hsig
  have hmagnitude : (0 : ℝ) < sig * (2 : ℝ) ^ exp := mul_pos (Nat.cast_pos.2 (Nat.pos_of_ne_zero hsig)) (by positivity)
  have hsign : signBit F a = false := by
    rw [← zero_lt_withSign_iff (signBit F a) hmagnitude, ← finValue_cast, ← hvalue]
    exact Rat.cast_pos.2 hpos
  rw [hvalue, finValue_cast, hsign, withSign_false, fSqrt, ha', sqrtDatum, if_neg hsig, hsign,
    if_neg Bool.false_ne_true, roundFin, if_neg hjam, ← withSign_false (Real.sqrt _)]
  exact rounded_roundPos hF hjam (standsFor_sqrtSig hsig)

end

end Sys2Proof.Machine
end

section
/-! The statements about quotients and roots. -/

namespace Sys2Proof.Proofs

open Sys2Proof.Machine

/-- Settles O58: the cut and jammed quotient or root stands for the exact one, and is rounded once. -/
theorem quotientsRootsRoundedOnce : Obligations.QuotientsRootsRoundedOnce :=
  fun _ _ _ _ hF ha => ⟨rounded_fDiv hF ha, rounded_fSqrt hF ha⟩

end Sys2Proof.Proofs
end

section
/-! Conversions from and to integers (`44_f_single.md` R306, R307). -/

namespace Sys2Proof.Machine

/-! ### From integers -/

section
variable {F : FloatFormat} {mode : RoundingMode} {v : ℝ}

theorem topUnit_pos (F : FloatFormat) : 0 < topUnit F := by unfold topUnit; positivity

theorem bottomUnit_pos (F : FloatFormat) : 0 < bottomUnit F := by unfold bottomUnit; positivity

theorem not_overflows_of_lt (h : |v| < ((topOf F - topUnit F : ℚ) : ℝ)) : ¬ Overflows F mode v := by
  have hunit : (0 : ℝ) < topUnit F := Rat.cast_pos.2 (topUnit_pos F)
  push_cast at h
  cases mode with
  | rne | rmm => simp only [Overflows, not_le]; push_cast; linarith
  | rtz => simp only [Overflows, not_le]; linarith
  | rdn | rup =>
    simp only [Overflows, not_or, not_and, not_le, not_lt]
    push_cast
    exact ⟨by linarith, fun _ => h.le⟩

theorem not_tiny_of_le (h : (bottomOf F : ℝ) ≤ |v|) : ¬ Tiny F mode v := by
  have hunit : (0 : ℝ) < bottomUnit F := Rat.cast_pos.2 (bottomUnit_pos F)
  cases mode with
  | rne | rmm => simp only [Tiny, not_lt]; push_cast; linarith
  | rtz => exact not_lt.2 h
  | rdn | rup => exact fun htiny => htiny.1.not_ge h

/-- Of a value well inside the range only NX is possible. -/
theorem flags_of_rounded {r : FpResult F} (h : Rounded F mode v r) (hover : ¬ Overflows F mode v)
    (htiny : ¬ Tiny F mode v) : r.2 = { nx := r.2.nx } := by
  obtain ⟨-, -, hfinite⟩ := h
  obtain ⟨-, -, hnv, hdz, hofl, -, hufl⟩ := hfinite hover
  have hufl' : r.2.ufl = false := by
    rw [← Bool.not_eq_true, hufl]
    exact fun h => htiny h.2
  obtain ⟨bits, ⟨nv, dz, ofl, ufl, nx⟩⟩ := r
  simp_all

theorem IsFormat.bottomOf_le_one (hF : IsFormat F) : bottomOf F ≤ 1 :=
  zpow_le_one_of_nonpos₀ one_le_two (by rcases hF with rfl | rfl <;> decide)

theorem IsFormat.two_pow_lt_top (hF : IsFormat F) : (2 : ℚ) ^ 64 < topOf F - topUnit F := by
  have hbias : 64 < F.bias := by rcases hF with rfl | rfl <;> decide
  have htop : topOf F = 2 * (2 : ℚ) ^ F.bias := by rw [topOf, zpow_add_one₀ two_ne_zero, mul_comm]
  have hunit : topUnit F ≤ (2 : ℚ) ^ F.bias := zpow_le_zpow_right₀ one_le_two (by omega)
  calc (2 : ℚ) ^ 64 = (2 : ℚ) ^ (64 : ℤ) := rfl
    _ < (2 : ℚ) ^ F.bias := zpow_lt_zpow_right₀ one_lt_two hbias
    _ ≤ topOf F - topUnit F := by linarith

/-- An integer of at most 64 bits is converted exactly and rounded once; NX is its only flag (R307). -/
theorem fromInteger_fromInt (hF : IsFormat F) {n : ℤ} (hn : |n| ≤ 2 ^ 64) :
    FromInt F mode n (fromInteger F mode n) := by
  refine ⟨fun h => by rw [h]; rfl, fun h => ?_⟩
  have hrounded : Rounded F mode (n : ℝ) (fromInteger F mode n) := by
    have hint := rounded_roundInt hF (mode := mode) (exp := 0) (zeroNeg := false) h
    rwa [zpow_zero, mul_one, Rat.cast_intCast] at hint
  refine ⟨hrounded, flags_of_rounded hrounded (not_overflows_of_lt ?_) (not_tiny_of_le ?_)⟩
  · have hn' : (|n| : ℚ) ≤ 2 ^ 64 := by exact_mod_cast hn
    exact_mod_cast hn'.trans_lt hF.two_pow_lt_top
  · have hn' : (1 : ℚ) ≤ |(n : ℚ)| := by exact_mod_cast Int.one_le_abs h
    exact_mod_cast hF.bottomOf_le_one.trans hn'

end

/-- A signed or unsigned register value of at most 64 bits. -/
theorem abs_toInt_le {w : ℕ} (hw : w ≤ 64) (v : BitVec w) : |v.toInt| ≤ 2 ^ 64 := by
  have hpow : (2 : ℤ) ^ w ≤ 2 ^ 64 := pow_le_pow_right₀ one_le_two hw
  have hlow := BitVec.le_two_mul_toInt (x := v)
  have hhigh := BitVec.two_mul_toInt_lt (x := v)
  exact abs_le.2 ⟨by linarith, by linarith⟩

theorem abs_toNat_le {w : ℕ} (hw : w ≤ 64) (v : BitVec w) : |(v.toNat : ℤ)| ≤ 2 ^ 64 := by
  rw [Nat.abs_cast]
  exact_mod_cast v.isLt.le.trans (Nat.pow_le_pow_right (by decide) hw)

/-! ### To integers -/

section
variable {mode : RoundingMode} {neg : Bool} {x : ℚ} {n : ℕ}

theorem signedSig_ne_iff : (signedSig neg n : ℚ) ≠ signOf neg * x ↔ (n : ℚ) ≠ x := by
  rw [signedSig_cast, ne_eq, mul_right_inj' (signOf_ne_zero neg)]

theorem abs_signOf_mul_sub (y : ℚ) : |signOf neg * x - signOf neg * y| = |x - y| := by
  rw [← mul_sub, abs_mul]
  cases neg <;> simp [signOf]

theorem abs_signOf_mul (y : ℚ) : |signOf neg * y| = |y| := by cases neg <;> simp [signOf]

theorem signedSig_mod_two (neg : Bool) (n : ℕ) : signedSig neg n % 2 = 0 ↔ n % 2 = 0 := by
  unfold signedSig
  split <;> omega

/-- On the integers the point picked is the integer that the mode picks (R306). -/
theorem roundsToInt_of_roundsOn (h : RoundsOn (multiples 1) mode neg (x : ℝ) n) :
    RoundsToInt mode (signOf neg * x) (signedSig neg n) := by
  obtain ⟨m, hlo, hhi, hcases⟩ := h
  simp only [multiples, mul_one] at hlo hhi hcases
  have hlo' : (m : ℚ) ≤ x := by exact_mod_cast hlo
  have hhi' : x < m + 1 := by exact_mod_cast hhi
  have hx : 0 ≤ x := (Nat.cast_nonneg m).trans hlo'
  have hpoint : (m : ℝ) < x ↔ (m : ℚ) < x := by norm_cast
  have hhalf : (m : ℝ) + (m + 1 : ℕ) < 2 * (x : ℝ) ↔ (m : ℚ) + (m + 1) < 2 * x := by norm_cast
  have htie : (m : ℝ) + (m + 1 : ℕ) = 2 * (x : ℝ) ↔ (m : ℚ) + (m + 1) = 2 * x := by norm_cast
  have hhalf' : (m : ℝ) + (m + 1 : ℕ) ≤ 2 * (x : ℝ) ↔ (m : ℚ) + (m + 1) ≤ 2 * x := by norm_cast
  have hdown : |x - m| = x - m := abs_of_nonneg (sub_nonneg.2 hlo')
  have hup : |x - (m + 1 : ℕ)| = m + 1 - x := by
    rw [abs_sub_comm, Nat.cast_add_one, abs_of_nonneg (sub_nonneg.2 hhi'.le)]
  cases mode with
  | rne =>
    simp only [GoesUp, hhalf, htie, not_or, not_lt, not_and] at hcases
    simp only [RoundsToInt, signedSig_mod_two, signedSig_cast, abs_signOf_mul_sub]
    rcases hcases with ⟨rfl, hnear, hodd⟩ | ⟨rfl, hnear⟩
    · rw [hdown]
      refine ⟨by linarith, fun htie => ?_⟩
      have := hodd (by linarith)
      omega
    · rw [hup]
      rcases hnear with hnear | ⟨hnear, hodd⟩
      · exact ⟨by linarith, fun htie => by linarith⟩
      · exact ⟨by linarith, fun _ => by omega⟩
  | rmm =>
    simp only [GoesUp, hhalf', not_le] at hcases
    simp only [RoundsToInt, signedSig_cast, abs_signOf_mul_sub, abs_signOf_mul, abs_of_nonneg hx, Nat.abs_cast]
    rcases hcases with ⟨rfl, hnear⟩ | ⟨rfl, hnear⟩
    · rw [hdown]
      exact ⟨by linarith, fun htie => by linarith⟩
    · rw [hup]
      exact ⟨by linarith, fun _ => by push_cast; exact hhi'.le⟩
  | rtz =>
    simp only [GoesUp, not_false_eq_true, and_true, and_false, or_false] at hcases
    subst hcases
    simp only [RoundsToInt, signedSig_cast, abs_signOf_mul_sub, abs_signOf_mul, abs_of_nonneg hx, Nat.abs_cast]
    exact ⟨hlo', by linarith⟩
  | rdn | rup =>
    simp only [GoesUp, hpoint, not_and, not_lt] at hcases
    simp only [RoundsToInt, signedSig_cast]
    rcases hcases with ⟨rfl, hstays⟩ | ⟨rfl, rfl, habove⟩
    · cases neg <;> simp [signOf] at hstays ⊢ <;> exact ⟨by linarith, by linarith⟩
    · simp only [signOf, Bool.false_eq_true, if_true, if_false, Nat.cast_add_one]
      exact ⟨by linarith, by linarith⟩

end

/-- `roundShift` to the unit 1 picks the integer for `±sig * 2^exp` and says whether that is another value. -/
theorem roundShift_one (mode : RoundingMode) (neg : Bool) (sig : ℕ) (exp : ℤ) :
    RoundsToInt mode (finValue neg sig exp) (signedSig neg (roundShift mode neg sig exp).1) ∧
      ((roundShift mode neg sig exp).2 = true ↔
        (signedSig neg (roundShift mode neg sig exp).1 : ℚ) ≠ finValue neg sig exp) := by
  have hround := roundShift_roundsOn mode neg sig exp 0
  have hinexact := roundShift_inexact_iff mode neg sig exp 0
  have hcast : (sig : ℝ) * (2 : ℝ) ^ exp = ((sig * (2 : ℚ) ^ exp : ℚ) : ℝ) := by push_cast; rfl
  rw [sub_zero, zpow_zero, hcast] at hround hinexact
  refine ⟨roundsToInt_of_roundsOn hround, ?_⟩
  have hexact := hround.eq_iff (multiples_strictMono one_pos)
  rw [finValue, signedSig_ne_iff, hinexact, ← not_exists_not]
  simp only [not_not, ← hexact]
  rw [multiples, mul_one]
  norm_cast

/-- The conversion of a datum to an integer between two bounds is the statement's (R306). -/
theorem toIntegerIn_convertsToInt {F : FloatFormat} {lo hi : ℤ} (hlohi : lo ≤ hi) (mode : RoundingMode)
    (a : BitVec F.width) :
    ConvertsToInt F mode a lo hi (toIntegerIn lo hi mode (unpack F a)).1 (toIntegerIn lo hi mode (unpack F a)).2 := by
  cases unpacks F a with
  | nan hnan hinf hfin hunpack =>
    rw [ConvertsToInt, hunpack, hinf, hfin]
    exact ⟨fun _ => ⟨rfl, rfl⟩, nofun, nofun⟩
  | inf hnan hinf hfin hunpack =>
    rw [ConvertsToInt, hunpack, hnan, hfin]
    exact ⟨nofun, fun _ => ⟨rfl, rfl⟩, nofun⟩
  | fin sig exp hnan hinf hfin hunpack hvalue =>
    obtain ⟨hround, hinexact⟩ := roundShift_one mode (signBit F a) sig exp
    rw [ConvertsToInt, hunpack, hnan, hinf, hvalue]
    simp only [toIntegerIn]
    refine ⟨nofun, nofun, fun _ => ⟨_, hround, fun h => ?_, fun h => ?_, fun h h' => ?_⟩⟩
    · rw [if_pos h]
      exact ⟨rfl, rfl⟩
    · rw [if_neg (by omega), if_pos h]
      exact ⟨rfl, rfl⟩
    · rw [if_neg (by omega), if_neg (by omega)]
      refine ⟨rfl, congrArg Flags.inexactIf ?_⟩
      rw [Bool.eq_iff_iff, hinexact, decide_eq_true_eq]

/-- Its integer is between the bounds. -/
theorem toIntegerIn_mem {lo hi : ℤ} (hlohi : lo ≤ hi) (mode : RoundingMode) (d : Datum) :
    lo ≤ (toIntegerIn lo hi mode d).1 ∧ (toIntegerIn lo hi mode d).1 ≤ hi := by
  cases d with
  | nan => exact ⟨hlohi, le_rfl⟩
  | inf neg => cases neg <;> simp [toIntegerIn, hlohi]
  | fin =>
    simp only [toIntegerIn]
    split_ifs <;> constructor <;> dsimp only <;> omega

/-! ### What the instructions answer -/

section
variable {i : Instr} {s : State} {rd : XReg} {F : FloatFormat} {mode : RoundingMode} {a : BitVec F.width}

theorem ResultXFlags.of_setWidth {w w' : Nat} {v : BitVec w} {v' : BitVec w'} {f : Flags} {t : State}
    (h : ResultXFlags rd v f s t) (hv : v.setWidth 64 = v'.setWidth 64) : ResultXFlags rd v' f s t := by
  unfold ResultXFlags WritesX at h ⊢
  rwa [← hv]

/-- A conversion to an integer of `k` bits, sign-extended to `XLEN`. -/
theorem answers_of_retireInt {k : ℕ} {lo hi : ℤ} {r : BitVec k × Flags} (hlohi : lo ≤ hi)
    (hexec : exec i s = retireInt rd r s)
    (hr : r = (BitVec.ofInt k (toIntegerIn lo hi mode (unpack F a)).1, (toIntegerIn lo hi mode (unpack F a)).2)) :
    ∃ (v : ℤ) (f : Flags), ConvertsToInt F mode a lo hi v f ∧ lo ≤ v ∧ v ≤ hi ∧
      Answers i s (ResultXFlags rd ((BitVec.ofInt k v).signExtend s.bits) f) := by
  obtain ⟨hlo, hhi⟩ := toIntegerIn_mem hlohi mode (unpack F a)
  refine ⟨_, _, toIntegerIn_convertsToInt hlohi mode a, hlo, hhi, ?_⟩
  subst hr
  exact answers_of_exec_eq hexec (retireInt_resultXFlags rd _ s)

/-- FCVT.W: the 32-bit integer is that of `XLEN` bits. -/
theorem answers_of_toSigned32 (hexec : exec i s = retireInt rd (fToSigned F 32 mode a) s) :
    ∃ (v : ℤ) (f : Flags), ConvertsToInt F mode a (-2 ^ 31) (2 ^ 31 - 1) v f ∧
      Answers i s (ResultXFlags rd (BitVec.ofInt s.bits v) f) := by
  obtain ⟨v, f, hconverts, hlo, hhi, hanswers⟩ := answers_of_retireInt (by decide) hexec rfl
  have hvalue : (BitVec.ofInt 32 v).signExtend s.bits = BitVec.ofInt s.bits v :=
    congrArg (BitVec.ofInt s.bits) (BitVec.toInt_ofInt_eq_self (by decide) hlo (by omega))
  exact ⟨v, f, hconverts, hvalue ▸ hanswers⟩

/-- FCVT.WU: the 32 bits are sign-extended all the same. -/
theorem answers_of_toUnsigned32 (hexec : exec i s = retireInt rd (fToUnsigned F 32 mode a) s) :
    ∃ (v : ℤ) (f : Flags), ConvertsToInt F mode a 0 (2 ^ 32 - 1) v f ∧
      Answers i s (ResultXFlags rd ((BitVec.ofInt 32 v).signExtend s.bits) f) := by
  obtain ⟨v, f, hconverts, -, -, hanswers⟩ := answers_of_retireInt (by decide) hexec rfl
  exact ⟨v, f, hconverts, hanswers⟩

/-- FCVT.L and FCVT.LU: with `XLEN = 64` there is nothing to extend. -/
theorem answers_of_retireInt64 (hx : s.params.xlen = .rv64) {lo hi : ℤ} {r : BitVec 64 × Flags} (hlohi : lo ≤ hi)
    (hexec : exec i s = retireInt rd r s)
    (hr : r = (BitVec.ofInt 64 (toIntegerIn lo hi mode (unpack F a)).1, (toIntegerIn lo hi mode (unpack F a)).2)) :
    ∃ (v : ℤ) (f : Flags), ConvertsToInt F mode a lo hi v f ∧ Answers i s (ResultXFlags rd (BitVec.ofInt 64 v) f) := by
  obtain ⟨v, f, hconverts, -, -, t, hnext, hresult⟩ := answers_of_retireInt hlohi hexec hr
  exact ⟨v, f, hconverts, t, hnext, hresult.of_setWidth (setWidth_ofInt_toInt_of_rv64 hx _)⟩

/-- FCVT.S from an integer of at most 64 bits. -/
theorem answers_of_fromIntegerS {rd : FReg} {n : ℤ} (hexec : exec i s = retireS rd (fromInteger binary32 mode n) s)
    (hn : |n| ≤ 2 ^ 64) :
    ∃ r, FromInt binary32 mode n r ∧ Answers i s (ResultFFlags rd (BitVec.allOnes 32 ++ r.1) r.2) :=
  ⟨_, fromInteger_fromInt (.inl rfl) hn, answers_of_retireS hexec⟩

/-- FCVT.D from an integer of at most 64 bits. -/
theorem answers_of_fromIntegerD {rd : FReg} {n : ℤ} (hexec : exec i s = retireD rd (fromInteger binary64 mode n) s)
    (hn : |n| ≤ 2 ^ 64) : ∃ r, FromInt binary64 mode n r ∧ Answers i s (ResultFFlags rd r.1 r.2) :=
  ⟨_, fromInteger_fromInt (.inr rfl) hn, answers_of_retireD hexec⟩

end

end Sys2Proof.Machine
end

section
/-! The statements about conversions. -/

namespace Sys2Proof.Proofs

open Sys2Proof.Machine

/-- Settles O53: each rounds to the unit 1 and saturates; only the bounds and the extension differ. -/
theorem floatToInteger : Obligations.FloatToInteger := by
  intro s rm mode rd rs1 hmode
  refine ⟨?w, ?wu, ?wD, ?wuD, fun hx => ⟨?l, ?lu, ?lD, ?luD⟩⟩
  case w | wD => exact answers_of_toSigned32 (withMode_of_effective _ hmode)
  case wu | wuD => exact answers_of_toUnsigned32 (withMode_of_effective _ hmode)
  case l | lu | lD | luD => exact answers_of_retireInt64 hx (by decide) (when64_withMode_of_effective _ hx hmode) rfl

/-- Settles O54: the integer has at most 64 bits, so it is far inside the range of either format. -/
theorem integerToFloat : Obligations.IntegerToFloat := by
  intro s rm mode rd rs1 hmode
  refine ⟨?sW, ?sWu, ?dW, ?dWu, fun hx => ⟨?sL, ?sLu, ?dL, ?dLu⟩⟩
  case sW => exact answers_of_fromIntegerS (withMode_of_effective _ hmode) (abs_toInt_le (by decide) _)
  case sWu => exact answers_of_fromIntegerS (withMode_of_effective _ hmode) (abs_toNat_le (by decide) _)
  case dW => exact answers_of_fromIntegerD (withMode_of_effective _ hmode) (abs_toInt_le (by decide) _)
  case dWu => exact answers_of_fromIntegerD (withMode_of_effective _ hmode) (abs_toNat_le (by decide) _)
  case sL => exact answers_of_fromIntegerS (when64_withMode_of_effective _ hx hmode) (abs_toInt_le le_rfl _)
  case sLu => exact answers_of_fromIntegerS (when64_withMode_of_effective _ hx hmode) (abs_toNat_le le_rfl _)
  case dL => exact answers_of_fromIntegerD (when64_withMode_of_effective _ hx hmode) (abs_toInt_le le_rfl _)
  case dLu => exact answers_of_fromIntegerD (when64_withMode_of_effective _ hx hmode) (abs_toNat_le le_rfl _)

end Sys2Proof.Proofs
end

section
/-! The statement about double-precision arithmetic (`45_d_double.md` R374 to R381, R387). -/

namespace Sys2Proof.Proofs

open Sys2Proof.Machine

/-- Settles O49: each runs its operation on the whole registers, which hold doubles unboxed (R370), under the effective
mode, and completes with its result and flags. -/
theorem doubleArithmetic : Obligations.DoubleArithmetic := by
  intro s rm mode rd rs1 rs2 rs3 hmode a b c
  refine ⟨?fadd, ?fsub, ?fmul, ?fdiv, ?fsqrt, ?fmadd, ?fmsub, ?fnmsub, ?fnmadd⟩
  all_goals exact answers_of_retireD (withMode_of_effective _ hmode)

end Sys2Proof.Proofs
end

section
/-! Traps: what a step of a running hart answers, that a trap writes nothing, and how it is delivered
(`60_exceptions.md` R424, R429, R446). -/

namespace Sys2Proof.Machine

section
variable {i : Instr} {s t : State} {tr : Trap}

/-- SAY ONCE WHAT A STEP OF A RUNNING HART ANSWERS: a trap, of the fetch or of a reserved word; a refusal at a stale byte
of the instruction; or what an instruction answers, its record of the LR/SC loop brought up to date. -/
theorem step_running_cases (hrun : s.run = .running) :
    (∃ tr, step s = .next (takeTrap tr s)) ∨
    (∃ a ∈ fetchAddrs s, a ∈ s.stale ∧ step s = .refused (.staleFetch a)) ∨
    ∃ i t, exec i s = .next t ∧ step s = followLoop i s (.next t) := by
  rcases fetch_cases s with ⟨-, hfetch⟩ | ⟨-, a, ha, hstale, hfetch⟩ | ⟨-, -, hfetch⟩
  · exact .inl ⟨_, step_of_fetch_trap hrun hfetch⟩
  · exact .inr (.inl ⟨a, ha, hstale, step_of_fetch_stale hrun hfetch⟩)
  · cases hdecode : decodeWord s.params.xlen (wordAt s (readPc s.bits s)) with
    | ok i =>
      obtain ⟨t, hexec⟩ := exists_exec_eq_next i s
      exact .inr (.inr ⟨i, t, hexec, by rw [step_of_fetch_decode hrun hfetch hdecode, hexec]⟩)
    | error e => exact .inl ⟨_, step_of_fetch_reserved hrun hfetch hdecode⟩

/-- A stopped hart never steps (R446). -/
theorem step_of_stopped (h : s.run = .stopped tr) : step s = .fault (.hartStopped tr) := by
  simp only [step, h]

/-- Running, a step answers no fault. -/
theorem step_ne_fault_of_running (hrun : s.run = .running) (f : Fault) : step s ≠ .fault f := by
  rcases step_running_cases hrun with ⟨_, h⟩ | ⟨_, -, -, h⟩ | ⟨i, t, -, h⟩
  · rw [h]; nofun
  · rw [h]; nofun
  · rw [h, followLoop_next]; nofun

/-- After an instruction a running hart runs on, unless it took a trap, which is all that happened. -/
theorem Successor.running_or_trap (h : Successor i s t) (hrun : s.run = .running) :
    t.run = .running ∨ ∃ tr, t = takeTrap tr s := by
  cases h with
  | traps tr => exact .inr ⟨tr, rfl⟩
  | advances he => exact .inl ((he.run_eq s).trans hrun)
  | goes _ he => exact .inl ((he.run_eq s).trans hrun)

/-- An instruction that has stopped a running hart on a trap took that trap and did nothing else (R424). -/
theorem eq_takeTrap_of_stopped (hrun : s.run = .running) (hexec : exec i s = .next t) (ht : t.run = .stopped tr) :
    t = takeTrap tr s := by
  rcases (exec_successor hexec).running_or_trap hrun with hgoes | ⟨tr', rfl⟩
  · rw [ht] at hgoes; cases hgoes
  · obtain rfl : tr' = tr := RunState.stopped.inj ht
    rfl

/-- Running again, the state is the one before the trap. -/
theorem takeTrap_resume (hrun : s.run = .running) (tr : Trap) : { takeTrap tr s with run := .running } = s := by
  rw [← hrun]; rfl

/-- The environment that answers a state is handed the trap and the state before it, and the hart runs on (R429). -/
theorem deliverTrap_takeTrap_of_some {eei : Eei} {u : State} (hrun : s.run = .running) (h : eei tr s = some u) :
    deliverTrap eei (takeTrap tr s) = { u with run := .running, retryLoop := none } := by
  simp only [deliverTrap, takeTrap_run, takeTrap_resume hrun, h]

/-- Where the environment answers none, the hart stays stopped. -/
theorem deliverTrap_takeTrap_of_none {eei : Eei} (hrun : s.run = .running) (h : eei tr s = none) :
    deliverTrap eei (takeTrap tr s) = takeTrap tr s := by
  simp only [deliverTrap, takeTrap_run, takeTrap_resume hrun, h]

end

end Sys2Proof.Machine
end

section
/-! The causes an instruction can raise, by the shared operation that its meaning is (`60_exceptions.md` R422). -/

namespace Sys2Proof.Machine

/-- If the answer is a stopped hart, the cause is one of these. -/
def RaisesOnly (cs : List Cause) (r : Result) : Prop :=
  ∀ (t : State) (tr : Trap), r = .next t → t.run = .stopped tr → tr.cause ∈ cs

section
variable {cs : List Cause} {i : Instr} {s t : State}

theorem RaisesOnly.of_running (ht : t.run = .running) : RaisesOnly cs (.next t) := by
  intro u tr hu hstop
  cases hu
  rw [ht] at hstop; cases hstop

theorem RaisesOnly.of_takeTrap {tr : Trap} (hc : tr.cause ∈ cs) : RaisesOnly cs (.next (takeTrap tr s)) := by
  intro u tr' hu hstop
  cases hu; cases hstop
  exact hc

/-- Completion never raises; an edit before it leaves the hart running. -/
theorem RaisesOnly.ofRetire (ht : t.run = .running) : RaisesOnly cs (retire t) := .of_running ht

theorem RaisesOnly.ofRetireX {w : Nat} {rd : XReg} {v : BitVec w} (ht : t.run = .running) :
    RaisesOnly cs (retireX rd v t) := .of_running ht

theorem RaisesOnly.ofRetireF {rd : FReg} {v : Word} (ht : t.run = .running) : RaisesOnly cs (retireF rd v t) :=
  .of_running ht

theorem RaisesOnly.ofRaise {c : Cause} {info : Word} : RaisesOnly [c] (raise s c info) :=
  .of_takeTrap (List.mem_singleton.2 rfl)

/-- A transfer raises for a misaligned target only (`40_rv32i.md` R161). -/
theorem RaisesOnly.ofTransfer {w : Nat} {target : BitVec w} (ht : t.run = .running) :
    RaisesOnly [.instructionAddressMisaligned] (transfer s t target) := by
  by_cases haligned : target.extractLsb' 0 2 = 0
  · rw [transfer_of_aligned s t haligned]; exact .of_running ht
  · rw [transfer_of_misaligned s t haligned]; exact .ofRaise

theorem RaisesOnly.ofBranch {n : Nat} {taken : Bool} {off : BitVec n} (hrun : s.run = .running) :
    RaisesOnly [.instructionAddressMisaligned] (branch s taken off) := by
  cases taken with
  | false => exact .ofRetire hrun
  | true => exact .ofTransfer hrun

/-- An access raises as misaligned or as refused (`20_memory.md` R66). -/
theorem RaisesOnly.ofAccess {w n : Nat} {mis ref : Cause} {kinds : List AccessKind} {addr : BitVec w} {k : Result}
    (hk : RaisesOnly [mis, ref] k) : RaisesOnly [mis, ref] (orElse (accessTrap s mis ref kinds addr n) s k) := by
  rcases accessTrap_cases s mis ref kinds addr n with ⟨-, htrap⟩ | ⟨-, -, htrap⟩ | ⟨-, -, htrap⟩ <;> rw [htrap]
  · exact .of_takeTrap (.head _)
  · exact .of_takeTrap (.tail _ (.head _))
  · exact hk

/-- The access of a single byte is never misaligned (`20_memory.md` R64). -/
theorem RaisesOnly.ofByteAccess {w : Nat} {mis ref : Cause} {kinds : List AccessKind} {addr : BitVec w} {k : Result}
    (hk : RaisesOnly [ref] k) : RaisesOnly [ref] (orElse (accessTrap s mis ref kinds addr 1) s k) := by
  rcases accessTrap_cases s mis ref kinds addr 1 with ⟨hmisaligned, -⟩ | ⟨-, -, htrap⟩ | ⟨-, -, htrap⟩
  · exact absurd (Nat.mod_one _) hmisaligned
  · rw [htrap]; exact .of_takeTrap (.head _)
  · rw [htrap]; exact hk

/-- SC checks its access whether it then succeeds or fails. -/
theorem RaisesOnly.ofStoreConditional {n : Nat} {rd rs1 rs2 : XReg} (hrun : s.run = .running) :
    RaisesOnly [.storeAMOAddressMisaligned, .storeAMOAccessFault] (storeConditional n rd rs1 rs2 s) := by
  refine .ofAccess ?_
  split
  · exact .ofRetireX hrun
  · exact .ofRetireX hrun

theorem RaisesOnly.ofAmo {n : Nat} {op : BitVec (8 * n) → BitVec (8 * n) → BitVec (8 * n)} {rd rs1 rs2 : XReg}
    (hrun : s.run = .running) :
    RaisesOnly [.storeAMOAddressMisaligned, .storeAMOAccessFault] (amo n op rd rs1 rs2 s) :=
  .ofAccess (.ofRetireX hrun)

/-- A 64-bit row raises nothing of its own where its row exists. -/
theorem RaisesOnly.ofWhen64 {k : Result} (hrow : rowOf64 s.params.xlen = true) (hk : RaisesOnly cs k) :
    RaisesOnly cs (when64 i s k) := by
  rwa [when64_of_rv64 k (Laws.eq_rv64_of_rowOf64 hrow)]

/-- A reserved rounding mode is illegal (`44_f_single.md` R301). -/
theorem RaisesOnly.ofWithMode {rm : BitVec 3} {k : RoundingMode → Result}
    (hk : ∀ mode, RaisesOnly [.illegalInstruction] (k mode)) :
    RaisesOnly [.illegalInstruction] (withMode i rm s k) := by
  cases hmode : resolveRm rm s.frm with
  | some mode => rw [withMode_of_some k hmode]; exact hk mode
  | none => rw [withMode_of_none k hmode]; exact .ofRaise

end

/-- Every instruction raises the causes of its list only. -/
theorem exec_raisesOnly {i : Instr} {s : State} (hwf : i.wellFormed s.params.xlen = true) (hrun : s.run = .running) :
    RaisesOnly (raisable i) (exec i s) := by
  cases i with
  | lui | auipc | addi | slti | sltiu | xori | ori | andi | slli32 | srli32 | srai32 | add | sub | sll | slt | sltu
  | xor | srl | sra | or | and | mul | mulh | mulhsu | mulhu | div | divu | rem | remu
  | fleS | fltS | feqS | fmvXS | fclassS | fleD | fltD | feqD | fclassD
  | frcsr | frrm | frflags | fscsr | fsrm | fsflags | fsrmi | fsflagsi => exact .ofRetireX hrun
  | slli64 | srli64 | srai64 | addiw | slliw | srliw | sraiw | addw | subw | sllw | srlw | sraw
  | mulw | divw | divuw | remw | remuw | fmvXD => exact .ofWhen64 hwf (.ofRetireX hrun)
  | fsgnjS | fsgnjnS | fsgnjxS | fminS | fmaxS | fmvSX | fsgnjD | fsgnjnD | fsgnjxD | fminD | fmaxD =>
    exact .ofRetireF hrun
  | fmvDX => exact .ofWhen64 hwf (.ofRetireF hrun)
  | fence | fenceI => exact .ofRetire hrun
  | ecall | ebreak => exact .ofRaise
  | jal | jalr => exact .ofTransfer hrun
  | beq | bne | blt | bge | bltu | bgeu => exact .ofBranch hrun
  | lb | lbu => exact .ofByteAccess (.ofRetireX hrun)
  | sb => exact .ofByteAccess (.ofRetire hrun)
  | lh | lhu | lw | lrW => exact .ofAccess (.ofRetireX hrun)
  | lwu | ld | lrD => exact .ofWhen64 hwf (.ofAccess (.ofRetireX hrun))
  | flw | fld => exact .ofAccess (.ofRetireF hrun)
  | sh | sw | fsw | fsd => exact .ofAccess (.ofRetire hrun)
  | sd => exact .ofWhen64 hwf (.ofAccess (.ofRetire hrun))
  | scW => exact .ofStoreConditional hrun
  | scD => exact .ofWhen64 hwf (.ofStoreConditional hrun)
  | amoswapW | amoaddW | amoxorW | amoorW | amoandW | amominW | amomaxW | amominuW | amomaxuW =>
    unfold exec; exact .ofAmo hrun
  | amoswapD | amoaddD | amoxorD | amoorD | amoandD | amominD | amomaxD | amominuD | amomaxuD =>
    unfold exec; exact .ofWhen64 hwf (.ofAmo hrun)
  | fmaddS | fmsubS | fnmsubS | fnmaddS | faddS | fsubS | fmulS | fdivS | fsqrtS | fcvtSW | fcvtSWu
  | fmaddD | fmsubD | fnmsubD | fnmaddD | faddD | fsubD | fmulD | fdivD | fsqrtD | fcvtDW | fcvtDWu =>
    exact .ofWithMode fun _ => .ofRetireF hrun
  | fcvtWS | fcvtWuS | fcvtWD | fcvtWuD => exact .ofWithMode fun _ => .ofRetireX hrun
  | fcvtLS | fcvtLuS | fcvtLD | fcvtLuD => exact .ofWhen64 hwf (.ofWithMode fun _ => .ofRetireX hrun)
  | fcvtSL | fcvtSLu | fcvtDL | fcvtDLu => exact .ofWhen64 hwf (.ofWithMode fun _ => .ofRetireF hrun)

end Sys2Proof.Machine
end

section
/-! The statements about traps and stops (`60_exceptions.md`). -/

namespace Sys2Proof.Proofs

open Sys2Proof.Machine

/-- Settles O9: `exec` always answers, so a step ends elsewhere only before it executes. -/
theorem stepStopsNowhereElse : Obligations.StepStopsNowhereElse := by
  refine ⟨exists_exec_eq_next, fun s f => ⟨fun hfault => ?_, ?_⟩, fun s r hrefused => ?_⟩
  · cases hrun : s.run with
    | running => exact absurd hfault (step_ne_fault_of_running hrun f)
    | stopped tr =>
      rw [step_of_stopped hrun] at hfault
      exact ⟨tr, rfl, (Host.Outcome.fault.inj hfault).symm⟩
  · rintro ⟨tr, hstopped, rfl⟩
    exact step_of_stopped hstopped
  · cases hrun : s.run with
    | stopped tr => rw [step_of_stopped hrun] at hrefused; cases hrefused
    | running =>
      rcases step_running_cases hrun with ⟨_, h⟩ | ⟨a, ha, hstale, h⟩ | ⟨i, t, -, h⟩
      · rw [h] at hrefused; cases hrefused
      · rw [h] at hrefused
        exact ⟨rfl, a, ha, hstale, (Host.Outcome.refused.inj hrefused).symm⟩
      · rw [h, followLoop_next] at hrefused; cases hrefused

/-- Settles O14: the trap is of the fetch or of the instruction, and the record of the LR/SC loop follows only a hart
that runs on. -/
theorem trapsWriteNothing : Obligations.TrapsWriteNothing := by
  intro s t hrun hstep
  rcases step_running_cases hrun with ⟨tr, h⟩ | ⟨a, -, -, h⟩ | ⟨i, u, hexec, h⟩ <;> rw [h] at hstep
  · cases hstep
    exact .inr ⟨tr, rfl⟩
  · cases hstep
  · rcases (exec_successor hexec).running_or_trap hrun with hgoes | ⟨tr, rfl⟩
    · rw [followLoop_next_of_running i s hgoes] at hstep
      cases hstep
      exact .inl hgoes
    · cases hstep
      exact .inr ⟨tr, rfl⟩

/-- Settles O15, from the list of every instruction. -/
theorem raisedExceptionsListed : Obligations.RaisedExceptionsListed :=
  fun _ _ t tr hwf hrun hexec hstop => exec_raisesOnly hwf hrun t tr hexec hstop

/-- Settles O10: the state after is the state before, stopped on the trap, so delivery hands over the state before. -/
theorem trapDelivery : Obligations.TrapDelivery := by
  intro i s t tr hrun hexec hstop
  refine ⟨deliverTrap_eeiStops t, step_of_stopped hstop, fun eei => ?_⟩
  obtain rfl := eq_takeTrap_of_stopped hrun hexec hstop
  exact ⟨fun _ => deliverTrap_takeTrap_of_some hrun, deliverTrap_takeTrap_of_none hrun⟩

end Sys2Proof.Proofs
end

section
/-! The state after reset (`70_reset_and_hazards.md` R470, R471). -/

namespace Sys2Proof.Machine

/-- Legal parameters put `RESET_PC` at a multiple of 4 inside the address space (`00_scope.md` R5). -/
theorem resetPc_legal {p : Params} (hp : p.wf = true) :
    p.resetPc.toNat < 2 ^ p.xlen.bits ∧ p.resetPc.toNat % 4 = 0 := by
  simp only [Params.wf, Bool.and_eq_true, decide_eq_true_eq, beq_iff_eq] at hp
  obtain ⟨⟨⟨haligned, hfits⟩, -⟩, -⟩ := hp
  exact ⟨hfits, haligned⟩

section
variable (p : Params) (xs fs : Vector Word 32) (fcsr : BitVec 8) (image : Memory)

/-- Reset clears slot 0 only, so any other register reads as what it was given. -/
theorem readX_resetWith_of_ne_x0 {r : XReg} (hr : r ≠ x0) :
    readX 64 (State.resetWith p xs fs fcsr image) r = xs[r.num.toNat]'r.num.isLt := by
  have hnum : r.num ≠ 0 := fun h => hr (congrArg XReg.mk h)
  have hslot : 0 ≠ r.num.toNat := fun h => hnum (BitVec.eq_of_toNat_eq h.symm)
  simp only [readX, if_neg hnum, BitVec.setWidth_eq, resetWith_xs]
  exact Vector.getElem_set_ne (by decide) r.num.isLt hslot

variable {p xs image}

/-- Register contents that fit still fit with slot 0 cleared. -/
theorem resetWith_xs_fit (hxs : ∀ (k : Nat) (h : k < 32), xs[k].toNat < 2 ^ p.xlen.bits) (k : Nat) (hk : k < 32) :
    (State.resetWith p xs fs fcsr image).xs[k].toNat < 2 ^ p.xlen.bits := by
  simp only [resetWith_xs, Vector.getElem_set]
  split
  · exact Nat.two_pow_pos _
  · exact hxs k hk

/-- The invariant at reset: what is demanded of the parameters, the registers and the image carries over, and there is
neither a stale address nor a reservation to speak of. -/
theorem Inv.resetWith (hp : p.wf = true) (hxs : ∀ (k : Nat) (h : k < 32), xs[k].toNat < 2 ^ p.xlen.bits)
    (hwf : image.wf = true) (hbelow : ∀ c ∈ image, c.1 < 2 ^ p.xlen.bits) :
    Inv (State.resetWith p xs fs fcsr image) where
  params_wf := hp
  pc_fits := (resetPc_legal hp).1
  pc_aligned := (resetPc_legal hp).2
  x0_zero := Vector.getElem_set_self (by decide)
  xs_fit := resetWith_xs_fit fs fcsr hxs
  mem_wf := hwf
  mem_below := hbelow
  stale_sorted := rfl
  stale_below := fun _ ha => nomatch ha
  reservation_aligned := fun _ hr => nomatch hr

end

end Sys2Proof.Machine
end

section
/-! The statements about reset (`70_reset_and_hazards.md`). -/

namespace Sys2Proof.Proofs

open Sys2Proof.Machine

/-- Settles O11: every field is the one reset was given, but for slot 0 of the integer registers. -/
theorem resetLeaves : Obligations.ResetLeaves := fun p xs fs fcsr image =>
  ⟨resetWith_params .., resetWith_pc .., readX_x0 64 _, fun _ => readX_resetWith_of_ne_x0 p xs fs fcsr image,
    fun _ => rfl, resetWith_fcsr .., resetWith_reservation .., resetWith_mem .., resetWith_stale ..,
    resetWith_run .., resetWith_scDraws .., resetWith_retryLoop ..⟩

/-- Settles O12: `State.reset` is the case of the default parameters, zero registers and no image. -/
theorem resetMeetsInvariant : Obligations.ResetMeetsInvariant := by
  have hdefault : Config.defaultParams.wf = true := by decide
  have hzeros : ∀ (k : Nat) (h : k < 32),
      (Vector.replicate 32 (0 : Word))[k].toNat < 2 ^ Config.defaultParams.xlen.bits := fun k h => by
    rw [Vector.getElem_replicate]
    exact Nat.two_pow_pos _
  exact ⟨.resetWith _ _ hdefault hzeros rfl (fun _ hc => nomatch hc), fun _ _ fs fcsr _ => .resetWith fs fcsr⟩

end Sys2Proof.Proofs
end
